-- ==== Sys2Proof/Word.lean ====
section
/-! DEFINITION. The widths of the hardware: bytes of 8 bits and addresses of 16 bits (R7, R20, R22). All arithmetic on
them is modulo 2^width (R8), which is `BitVec`'s own. -/

namespace Sys2Proof

/-- The CPU data width (R7): one byte. -/
abbrev Byte := BitVec 8

/-- The CPU address width (R7): 16 bits. -/
abbrev Word := BitVec 16

end Sys2Proof
end

