-- ==== Sys2Proof/Machine/Bits.lean ====
section
/-! DEFINITION. The bit-field helpers of R8: the two bytes of a word, concatenation, sign and zero extension, pages. -/

namespace Sys2Proof

/-- `hi(w)`, bits 15:8 (R8). -/
def hi (w : Word) : Byte := w.extractLsb' 8 8

/-- `lo(w)`, bits 7:0 (R8). -/
def lo (w : Word) : Byte := w.extractLsb' 0 8

/-- `{h, l}`: the word whose high byte is `h` and whose low byte is `l` (R8). -/
def wordOf (h l : Byte) : Word := h ++ l

/-- `page(w)`, which is `hi(w)` (R8). -/
def page (w : Word) : Byte := hi w

/-- `zext_16(v)` (R8). -/
def zext16 (v : Byte) : Word := v.setWidth 16

/-- `sext_16(v)` (R8): bits 15:8 all equal to `v[7]`. -/
def sext16 (v : Byte) : Word := v.signExtend 16

/-- The zero-page address `{0x00, b}` (R143). -/
def zeroPage (b : Byte) : Word := wordOf 0 b

/-- The stack address `{0x01, S}` (R21). -/
def stackAddr (s : Byte) : Word := wordOf 1 s

/-- `FlipByte(b)` (R413): bit i of the result is bit 7 - i of `b`. -/
def flipByte (b : Byte) : Byte := b.reverse

end Sys2Proof
end

