-- ==== Sys2Proof/Config.lean ====
section
/-! DEFINITION. What the spec fixes once for the machine (R7), and the free values: constants with no body, about which
nothing can be proved but what holds of every value (R61, U5, U16 to U18 of spec/93_implementation_defined.md). -/

namespace Sys2Proof.Config

/-- OPEN_BUS_VALUE (R7, R86, D1). -/
def openBusValue : Byte := 0x00

/-- RESET_STATUS (R7, R60, D4): Interrupt-disable and Unused set, all else clear. -/
def resetStatus : Byte := 0x24

/-- The stack pointer after reset (R495). -/
def resetStackPointer : Byte := 0xFD

/-- The reset vector, low byte; the high byte is one address up (R91). -/
def resetVector : Word := 0xFFFC

/-- The NMI vector, low byte (R91). -/
def nmiVector : Word := 0xFFFA

/-- The IRQ and BRK vector, low byte (R91). -/
def irqVector : Word := 0xFFFE

/-- AUDIO_SAMPLE_HZ (R7, R472). -/
def audioSampleHz : Rat := 44100

/-- INIT_WORK_MEMORY (R7, R61): what a byte of work memory that nothing has written reads as. FREE VALUE, log entry 2. -/
opaque initWorkMemory : Nat → Byte

/-- INIT_OAM (R7, R61). FREE VALUE, log entry 2. -/
opaque initOam : Nat → Byte

/-- INIT_PALETTE (R7, R61). FREE VALUE, log entry 2. -/
opaque initPalette : Nat → Byte

/-- INIT_NAMETABLE (R7, R61). FREE VALUE, log entry 2. -/
opaque initNametable : Nat → Byte

/-- INIT_PATTERN (R7, R61). FREE VALUE, log entry 2. -/
opaque initPattern : Nat → Byte

/-- What a pixel of the frame buffer that nothing has drawn holds (R60, R61). FREE VALUE, log entry 2. -/
opaque initFrame : Nat → BitVec 6

/-- PALETTE_RGB (R7, R48, R426, U18): the RGB value of each of the 64 colour indices. FREE VALUE, log entry 15. The spec gives
an RGB value no width; 24 bits is the model's choice (DESIGN CHOICE, log entry 15). -/
opaque paletteRgb : BitVec 6 → BitVec 24

/-- The sample `output_sample()` gives at a value of the system counter (R471, R472, U17). FREE VALUE, log entry 15, which
also marks its width as the model's (DESIGN CHOICE). -/
opaque soundSample : Nat → BitVec 32

/-- `CartCpuRead` of an arbitrary cartridge: its answer to its n-th question (R84, U16). FREE VALUE, log entry 3. -/
opaque cartCpuRead : Nat → Word → Option Byte

/-- `CartCpuWrite` of an arbitrary cartridge: does it claim the write (R84, U16). FREE VALUE, log entry 3. -/
opaque cartCpuWrite : Nat → Word → Byte → Bool

/-- `CartPpuRead` of an arbitrary cartridge (R85, U16). FREE VALUE, log entry 3. -/
opaque cartPpuRead : Nat → BitVec 14 → Option Byte

/-- `CartPpuWrite` of an arbitrary cartridge (R85, U16). FREE VALUE, log entry 3. -/
opaque cartPpuWrite : Nat → BitVec 14 → Byte → Bool

/-- `mirroring_mode()` of an arbitrary cartridge: is logical nametable k in internal bank 1 (R103, U15). FREE VALUE,
log entry 3. -/
opaque cartMirroring : Nat → BitVec 2 → Bool

/-- `irq_pending()` of an arbitrary cartridge (R465, U8). FREE VALUE, log entry 3. -/
opaque cartIrqPending : Nat → Bool

/-- The pattern address of an 8 by 8 sprite whose `line` (R412) is negative: the program changed the sprite size between
evaluation and fetch, the sprite is flipped vertically, and its row is above 7. It depends on Control, the entry's tile
and attribute bytes, and the row. FREE VALUE, log entry 12. -/
opaque spriteAddrOutside : Byte → Byte → Byte → Int → Word

end Sys2Proof.Config
end

