-- ==== Sys2Proof/Machine/Memory.lean ====
section
/-! DEFINITION. Every memory of the machine as plain data: a list of (address, value) pairs in one canonical form,
addresses strictly rising (Host.Cell when the values are bytes). An unlisted address has never been written; what it
reads as is given by the reader: the power-on contents (R61) or, for a cartridge chip, the chip's fill byte. Where that
byte is known it is never listed; where it is a free value no listed byte is compared with it (log entry 2). -/

namespace Sys2Proof.Machine

/-- A memory whose cells are `n` bits wide. -/
abbrev Memory (n : Nat) := List (Nat × BitVec n)

/-- The listed value of an address, if there is one. -/
def Memory.lookup {n : Nat} : Memory n → Nat → Option (BitVec n)
  | [], _ => none
  | (k, v) :: rest, a => if a = k then some v else Memory.lookup rest a

/-- What an address reads as: its listed value, else the value `blank` gives for an address nothing has written. -/
def Memory.read {n : Nat} (blank : Nat → BitVec n) (m : Memory n) (a : Nat) : BitVec n :=
  (Memory.lookup m a).getD (blank a)

/-- List a value at an address, in its place, replacing a value listed there. -/
def Memory.put {n : Nat} : Memory n → Nat → BitVec n → Memory n
  | [], a, v => [(a, v)]
  | (k, w) :: rest, a, v =>
    if a < k then (a, v) :: (k, w) :: rest
    else if a = k then (a, v) :: rest
    else (k, w) :: Memory.put rest a v

/-- Unlist an address. -/
def Memory.erase {n : Nat} : Memory n → Nat → Memory n
  | [], _ => []
  | (k, w) :: rest, a => if a = k then rest else (k, w) :: Memory.erase rest a

/-- A write to a memory whose unlisted addresses all read as the known value `fill`: writing it unlists the address. -/
def Memory.putFill {n : Nat} (fill : BitVec n) (m : Memory n) (a : Nat) (v : BitVec n) : Memory n :=
  if v = fill then Memory.erase m a else Memory.put m a v

/-- Every address is above `k`, and they rise strictly. -/
def Memory.risingFrom {n : Nat} : Option Nat → Memory n → Bool
  | _, [] => true
  | none, (k, _) :: rest => Memory.risingFrom (some k) rest
  | some b, (k, _) :: rest => decide (b < k) && Memory.risingFrom (some k) rest

/-- The canonical form: addresses strictly rising and all of them `ok`. -/
def Memory.wf {n : Nat} (ok : Nat → Bool) (m : Memory n) : Bool :=
  Memory.risingFrom none m && m.all fun c => ok c.1

/-- The canonical form of a memory whose fill value is known: no entry equals it. -/
def Memory.wfFill {n : Nat} (ok : Nat → Bool) (fill : BitVec n) (m : Memory n) : Bool :=
  Memory.wf ok m && m.all fun c => decide (c.2 ≠ fill)

end Sys2Proof.Machine
end

