-- ==== Sys2Proof/Syntax.lean ====
section
/-! DEFINITION. The instructions as syntax: one constructor of `Instr` per row of spec/opcode_table.json (R144: 256
opcode values, one entry each), the 76 mnemonics, and the 13 addressing modes of R142 with their operand bytes.
A constructor is named after its mnemonic and mode; where two rows share both, the opcode value is added. An 8-bit
operand is `b` (byte 1), a 16-bit operand is `w` (byte 2 high, byte 1 low, R140). -/

namespace Sys2Proof

/-- The 76 mnemonics of spec/opcode_table.json. -/
inductive Mnemonic where
  | adc | alr | anc | and | ane | arr | asl | axs | bcc | bcs | beq | bit
  | bmi | bne | bpl | brk | bvc | bvs | clc | cld | cli | clv | cmp | cpx
  | cpy | dcp | dec | dex | dey | eor | inc | inx | iny | isc | jam | jmp
  | jsr | las | lax | lda | ldx | ldy | lsr | lxa | nop | ora | pha | php
  | pla | plp | rla | rol | ror | rra | rti | rts | sax | sbc | sec | sed
  | sei | sha | shx | shy | slo | sre | sta | stx | sty | tas | tax | tay
  | tsx | txa | txs | tya
deriving DecidableEq, Repr

/-- The 13 addressing modes (R142), each with the operand bytes the instruction carries (R143). -/
inductive Operand where
  | imp                 -- R173, implied
  | acc                 -- R174, accumulator
  | imm (b : Byte)      -- R175, immediate
  | zp (b : Byte)       -- R176, zero page
  | zpx (b : Byte)      -- R177, zero page indexed by X
  | zpy (b : Byte)      -- R178, zero page indexed by Y
  | abs (w : Word)      -- R179, absolute
  | ind (w : Word)      -- R180, indirect
  | izx (b : Byte)      -- R181, indexed indirect
  | izy (b : Byte)      -- R182, indirect indexed
  | abx (w : Word)      -- R183, absolute indexed by X
  | aby (w : Word)      -- R184, absolute indexed by Y
  | rel (b : Byte)      -- R185, relative
deriving DecidableEq, Repr

/-- The 256 instructions of the opcode matrix (R144): the rows with operand bytes in opcode order, then the rows
without (so ordered because Lean's compiler bounds the number of constructors that carry data). -/
inductive Instr where
  | oraIzx (b : Byte)             -- 0x01, R213
  | sloIzx (b : Byte)             -- 0x03, R306
  | nopZp04 (b : Byte)            -- 0x04, R303
  | oraZp (b : Byte)              -- 0x05, R213
  | aslZp (b : Byte)              -- 0x06, R240
  | sloZp (b : Byte)              -- 0x07, R306
  | oraImm (b : Byte)             -- 0x09, R213
  | anc0B (b : Byte)              -- 0x0B, R312
  | nopAbs0C (w : Word)           -- 0x0C, R303
  | oraAbs (w : Word)             -- 0x0D, R213
  | aslAbs (w : Word)             -- 0x0E, R240
  | sloAbs (w : Word)             -- 0x0F, R306
  | bpl (b : Byte)                -- 0x10, R259
  | oraIzy (b : Byte)             -- 0x11, R213
  | sloIzy (b : Byte)             -- 0x13, R306
  | nopZpx14 (b : Byte)           -- 0x14, R303
  | oraZpx (b : Byte)             -- 0x15, R213
  | aslZpx (b : Byte)             -- 0x16, R240
  | sloZpx (b : Byte)             -- 0x17, R306
  | oraAby (w : Word)             -- 0x19, R213
  | sloAby (w : Word)             -- 0x1B, R306
  | nopAbx1C (w : Word)           -- 0x1C, R303
  | oraAbx (w : Word)             -- 0x1D, R213
  | aslAbx (w : Word)             -- 0x1E, R240
  | sloAbx (w : Word)             -- 0x1F, R306
  | jsr (w : Word)                -- 0x20, R251
  | andIzx (b : Byte)             -- 0x21, R212
  | rlaIzx (b : Byte)             -- 0x23, R307
  | bitZp (b : Byte)              -- 0x24, R218
  | andZp (b : Byte)              -- 0x25, R212
  | rolZp (b : Byte)              -- 0x26, R242
  | rlaZp (b : Byte)              -- 0x27, R307
  | andImm (b : Byte)             -- 0x29, R212
  | anc2B (b : Byte)              -- 0x2B, R312
  | bitAbs (w : Word)             -- 0x2C, R218
  | andAbs (w : Word)             -- 0x2D, R212
  | rolAbs (w : Word)             -- 0x2E, R242
  | rlaAbs (w : Word)             -- 0x2F, R307
  | bmi (b : Byte)                -- 0x30, R258
  | andIzy (b : Byte)             -- 0x31, R212
  | rlaIzy (b : Byte)             -- 0x33, R307
  | nopZpx34 (b : Byte)           -- 0x34, R303
  | andZpx (b : Byte)             -- 0x35, R212
  | rolZpx (b : Byte)             -- 0x36, R242
  | rlaZpx (b : Byte)             -- 0x37, R307
  | andAby (w : Word)             -- 0x39, R212
  | rlaAby (w : Word)             -- 0x3B, R307
  | nopAbx3C (w : Word)           -- 0x3C, R303
  | andAbx (w : Word)             -- 0x3D, R212
  | rolAbx (w : Word)             -- 0x3E, R242
  | rlaAbx (w : Word)             -- 0x3F, R307
  | eorIzx (b : Byte)             -- 0x41, R214
  | sreIzx (b : Byte)             -- 0x43, R308
  | nopZp44 (b : Byte)            -- 0x44, R303
  | eorZp (b : Byte)              -- 0x45, R214
  | lsrZp (b : Byte)              -- 0x46, R241
  | sreZp (b : Byte)              -- 0x47, R308
  | eorImm (b : Byte)             -- 0x49, R214
  | alr (b : Byte)                -- 0x4B, R313
  | jmpAbs (w : Word)             -- 0x4C, R250
  | eorAbs (w : Word)             -- 0x4D, R214
  | lsrAbs (w : Word)             -- 0x4E, R241
  | sreAbs (w : Word)             -- 0x4F, R308
  | bvc (b : Byte)                -- 0x50, R260
  | eorIzy (b : Byte)             -- 0x51, R214
  | sreIzy (b : Byte)             -- 0x53, R308
  | nopZpx54 (b : Byte)           -- 0x54, R303
  | eorZpx (b : Byte)             -- 0x55, R214
  | lsrZpx (b : Byte)             -- 0x56, R241
  | sreZpx (b : Byte)             -- 0x57, R308
  | eorAby (w : Word)             -- 0x59, R214
  | sreAby (w : Word)             -- 0x5B, R308
  | nopAbx5C (w : Word)           -- 0x5C, R303
  | eorAbx (w : Word)             -- 0x5D, R214
  | lsrAbx (w : Word)             -- 0x5E, R241
  | sreAbx (w : Word)             -- 0x5F, R308
  | adcIzx (b : Byte)             -- 0x61, R210
  | rraIzx (b : Byte)             -- 0x63, R309
  | nopZp64 (b : Byte)            -- 0x64, R303
  | adcZp (b : Byte)              -- 0x65, R210
  | rorZp (b : Byte)              -- 0x66, R243
  | rraZp (b : Byte)              -- 0x67, R309
  | adcImm (b : Byte)             -- 0x69, R210
  | arr (b : Byte)                -- 0x6B, R314
  | jmpInd (w : Word)             -- 0x6C, R250
  | adcAbs (w : Word)             -- 0x6D, R210
  | rorAbs (w : Word)             -- 0x6E, R243
  | rraAbs (w : Word)             -- 0x6F, R309
  | bvs (b : Byte)                -- 0x70, R261
  | adcIzy (b : Byte)             -- 0x71, R210
  | rraIzy (b : Byte)             -- 0x73, R309
  | nopZpx74 (b : Byte)           -- 0x74, R303
  | adcZpx (b : Byte)             -- 0x75, R210
  | rorZpx (b : Byte)             -- 0x76, R243
  | rraZpx (b : Byte)             -- 0x77, R309
  | adcAby (w : Word)             -- 0x79, R210
  | rraAby (w : Word)             -- 0x7B, R309
  | nopAbx7C (w : Word)           -- 0x7C, R303
  | adcAbx (w : Word)             -- 0x7D, R210
  | rorAbx (w : Word)             -- 0x7E, R243
  | rraAbx (w : Word)             -- 0x7F, R309
  | nopImm80 (b : Byte)           -- 0x80, R302
  | staIzx (b : Byte)             -- 0x81, R193
  | nopImm82 (b : Byte)           -- 0x82, R302
  | saxIzx (b : Byte)             -- 0x83, R305
  | styZp (b : Byte)              -- 0x84, R195
  | staZp (b : Byte)              -- 0x85, R193
  | stxZp (b : Byte)              -- 0x86, R194
  | saxZp (b : Byte)              -- 0x87, R305
  | nopImm89 (b : Byte)           -- 0x89, R302
  | ane (b : Byte)                -- 0x8B, R318
  | styAbs (w : Word)             -- 0x8C, R195
  | staAbs (w : Word)             -- 0x8D, R193
  | stxAbs (w : Word)             -- 0x8E, R194
  | saxAbs (w : Word)             -- 0x8F, R305
  | bcc (b : Byte)                -- 0x90, R254
  | staIzy (b : Byte)             -- 0x91, R193
  | shaIzy (b : Byte)             -- 0x93, R320
  | styZpx (b : Byte)             -- 0x94, R195
  | staZpx (b : Byte)             -- 0x95, R193
  | stxZpy (b : Byte)             -- 0x96, R194
  | saxZpy (b : Byte)             -- 0x97, R305
  | staAby (w : Word)             -- 0x99, R193
  | tas (w : Word)                -- 0x9B, R323
  | shy (w : Word)                -- 0x9C, R322
  | staAbx (w : Word)             -- 0x9D, R193
  | shx (w : Word)                -- 0x9E, R321
  | shaAby (w : Word)             -- 0x9F, R320
  | ldyImm (b : Byte)             -- 0xA0, R192
  | ldaIzx (b : Byte)             -- 0xA1, R190
  | ldxImm (b : Byte)             -- 0xA2, R191
  | laxIzx (b : Byte)             -- 0xA3, R304
  | ldyZp (b : Byte)              -- 0xA4, R192
  | ldaZp (b : Byte)              -- 0xA5, R190
  | ldxZp (b : Byte)              -- 0xA6, R191
  | laxZp (b : Byte)              -- 0xA7, R304
  | ldaImm (b : Byte)             -- 0xA9, R190
  | lxa (b : Byte)                -- 0xAB, R319
  | ldyAbs (w : Word)             -- 0xAC, R192
  | ldaAbs (w : Word)             -- 0xAD, R190
  | ldxAbs (w : Word)             -- 0xAE, R191
  | laxAbs (w : Word)             -- 0xAF, R304
  | bcs (b : Byte)                -- 0xB0, R255
  | ldaIzy (b : Byte)             -- 0xB1, R190
  | laxIzy (b : Byte)             -- 0xB3, R304
  | ldyZpx (b : Byte)             -- 0xB4, R192
  | ldaZpx (b : Byte)             -- 0xB5, R190
  | ldxZpy (b : Byte)             -- 0xB6, R191
  | laxZpy (b : Byte)             -- 0xB7, R304
  | ldaAby (w : Word)             -- 0xB9, R190
  | las (w : Word)                -- 0xBB, R324
  | ldyAbx (w : Word)             -- 0xBC, R192
  | ldaAbx (w : Word)             -- 0xBD, R190
  | ldxAby (w : Word)             -- 0xBE, R191
  | laxAby (w : Word)             -- 0xBF, R304
  | cpyImm (b : Byte)             -- 0xC0, R217
  | cmpIzx (b : Byte)             -- 0xC1, R215
  | nopImmC2 (b : Byte)           -- 0xC2, R302
  | dcpIzx (b : Byte)             -- 0xC3, R310
  | cpyZp (b : Byte)              -- 0xC4, R217
  | cmpZp (b : Byte)              -- 0xC5, R215
  | decZp (b : Byte)              -- 0xC6, R220
  | dcpZp (b : Byte)              -- 0xC7, R310
  | cmpImm (b : Byte)             -- 0xC9, R215
  | axs (b : Byte)                -- 0xCB, R315
  | cpyAbs (w : Word)             -- 0xCC, R217
  | cmpAbs (w : Word)             -- 0xCD, R215
  | decAbs (w : Word)             -- 0xCE, R220
  | dcpAbs (w : Word)             -- 0xCF, R310
  | bne (b : Byte)                -- 0xD0, R257
  | cmpIzy (b : Byte)             -- 0xD1, R215
  | dcpIzy (b : Byte)             -- 0xD3, R310
  | nopZpxD4 (b : Byte)           -- 0xD4, R303
  | cmpZpx (b : Byte)             -- 0xD5, R215
  | decZpx (b : Byte)             -- 0xD6, R220
  | dcpZpx (b : Byte)             -- 0xD7, R310
  | cmpAby (w : Word)             -- 0xD9, R215
  | dcpAby (w : Word)             -- 0xDB, R310
  | nopAbxDC (w : Word)           -- 0xDC, R303
  | cmpAbx (w : Word)             -- 0xDD, R215
  | decAbx (w : Word)             -- 0xDE, R220
  | dcpAbx (w : Word)             -- 0xDF, R310
  | cpxImm (b : Byte)             -- 0xE0, R216
  | sbcIzx (b : Byte)             -- 0xE1, R211
  | nopImmE2 (b : Byte)           -- 0xE2, R302
  | iscIzx (b : Byte)             -- 0xE3, R311
  | cpxZp (b : Byte)              -- 0xE4, R216
  | sbcZp (b : Byte)              -- 0xE5, R211
  | incZp (b : Byte)              -- 0xE6, R219
  | iscZp (b : Byte)              -- 0xE7, R311
  | sbcImm (b : Byte)             -- 0xE9, R211
  | sbcImmEB (b : Byte)           -- 0xEB, R316
  | cpxAbs (w : Word)             -- 0xEC, R216
  | sbcAbs (w : Word)             -- 0xED, R211
  | incAbs (w : Word)             -- 0xEE, R219
  | iscAbs (w : Word)             -- 0xEF, R311
  | beq (b : Byte)                -- 0xF0, R256
  | sbcIzy (b : Byte)             -- 0xF1, R211
  | iscIzy (b : Byte)             -- 0xF3, R311
  | nopZpxF4 (b : Byte)           -- 0xF4, R303
  | sbcZpx (b : Byte)             -- 0xF5, R211
  | incZpx (b : Byte)             -- 0xF6, R219
  | iscZpx (b : Byte)             -- 0xF7, R311
  | sbcAby (w : Word)             -- 0xF9, R211
  | iscAby (w : Word)             -- 0xFB, R311
  | nopAbxFC (w : Word)           -- 0xFC, R303
  | sbcAbx (w : Word)             -- 0xFD, R211
  | incAbx (w : Word)             -- 0xFE, R219
  | iscAbx (w : Word)             -- 0xFF, R311
  | brk                           -- 0x00, R262
  | jam02                         -- 0x02, R317
  | php                           -- 0x08, R281
  | aslAcc                        -- 0x0A, R240
  | jam12                         -- 0x12, R317
  | clc                           -- 0x18, R284
  | nopImp1A                      -- 0x1A, R301
  | jam22                         -- 0x22, R317
  | plp                           -- 0x28, R283
  | rolAcc                        -- 0x2A, R242
  | jam32                         -- 0x32, R317
  | sec                           -- 0x38, R285
  | nopImp3A                      -- 0x3A, R301
  | rti                           -- 0x40, R263
  | jam42                         -- 0x42, R317
  | pha                           -- 0x48, R280
  | lsrAcc                        -- 0x4A, R241
  | jam52                         -- 0x52, R317
  | cli                           -- 0x58, R286
  | nopImp5A                      -- 0x5A, R301
  | rts                           -- 0x60, R252
  | jam62                         -- 0x62, R317
  | pla                           -- 0x68, R282
  | rorAcc                        -- 0x6A, R243
  | jam72                         -- 0x72, R317
  | sei                           -- 0x78, R287
  | nopImp7A                      -- 0x7A, R301
  | dey                           -- 0x88, R224
  | txa                           -- 0x8A, R198
  | jam92                         -- 0x92, R317
  | tya                           -- 0x98, R199
  | txs                           -- 0x9A, R201
  | tay                           -- 0xA8, R197
  | tax                           -- 0xAA, R196
  | jamB2                         -- 0xB2, R317
  | clv                           -- 0xB8, R290
  | tsx                           -- 0xBA, R200
  | iny                           -- 0xC8, R222
  | dex                           -- 0xCA, R223
  | jamD2                         -- 0xD2, R317
  | cld                           -- 0xD8, R288
  | nopImpDA                      -- 0xDA, R301
  | inx                           -- 0xE8, R221
  | nop                           -- 0xEA, R291
  | jamF2                         -- 0xF2, R317
  | sed                           -- 0xF8, R289
  | nopImpFA                      -- 0xFA, R301
deriving DecidableEq, Repr

end Sys2Proof
end

