-- ==== Sys2Proof/Machine/State.lean ====
section
/-! DEFINITION. The state of the machine: CPU (R20 to R28), PPU (R30 to R48), ORCH (R50 to R56), the cartridge interface
(R84, R85), the inputs and outputs of R453 and the OPEN parameters of R7. All of it is plain data. INVENTORY.md lists
every field with its rule and its reset value. -/

namespace Sys2Proof.Machine

/-- The six stored flags of the status register P (R23). Break and Unused are hard-wired (R24, D3), so they are not
stored: `Flags.toByte` (Flags.lean) gives the register as a byte. -/
structure Flags where
  /-- bit 0, Carry -/
  c : Bool
  /-- bit 1, Zero -/
  z : Bool
  /-- bit 2, Interrupt-disable -/
  i : Bool
  /-- bit 3, Decimal: stored, no effect (R26) -/
  d : Bool
  /-- bit 6, Overflow -/
  v : Bool
  /-- bit 7, Negative -/
  n : Bool
deriving DecidableEq, Repr

/-- The CPU agent (R20 to R28). -/
structure Cpu where
  /-- accumulator (R20) -/
  a : Byte
  /-- index register X (R20) -/
  x : Byte
  /-- index register Y (R20) -/
  y : Byte
  /-- stack pointer (R21) -/
  s : Byte
  /-- status register (R23) -/
  p : Flags
  /-- program counter (R22) -/
  pc : Word
  /-- `cycles_remaining` (R27) -/
  cycles : Nat
deriving DecidableEq, Repr

/-- One of the 8 slots of secondary OAM (R39) with its two sprite shift registers (R40). -/
structure SpriteSlot where
  /-- Y byte -/
  y : Byte
  /-- tile index byte -/
  tile : Byte
  /-- attribute byte (R38) -/
  attr : Byte
  /-- X byte, the down-counter while the line is drawn (R39, R404) -/
  x : Byte
  /-- `spr_lo` (R40) -/
  lo : Byte
  /-- `spr_hi` (R40) -/
  hi : Byte
deriving DecidableEq, Repr

/-- The PPU agent (R30 to R48). -/
structure Ppu where
  /-- Control (R30) -/
  ctrl : Byte
  /-- Mask (R31) -/
  mask : Byte
  /-- Status: sprite overflow (R32) -/
  overflow : Bool
  /-- Status: sprite-zero hit (R32) -/
  spr0Hit : Bool
  /-- Status: vertical blank (R32) -/
  vblank : Bool
  /-- the current scroll register (R33) -/
  v : BitVec 15
  /-- the temporary scroll register (R33) -/
  t : BitVec 15
  /-- fine X (R34) -/
  fineX : BitVec 3
  /-- write toggle (R35): false is the first write of a pair -/
  w : Bool
  /-- data-port read buffer (R36) -/
  dataBuffer : Byte
  /-- OAM address (R37) -/
  oamAddr : Byte
  /-- object attribute memory, 256 bytes (R38) -/
  oam : Memory 8
  /-- secondary OAM and the sprite shifters, 8 slots (R39, R40) -/
  slots : List SpriteSlot
  /-- valid secondary-OAM entries, 0 to 8 (R39) -/
  spriteCount : Nat
  /-- sprite 0 was selected (R41) -/
  spr0Possible : Bool
  /-- the foreground pixel of this cycle comes from slot 0 (R41) -/
  spr0Rendered : Bool
  /-- next tile id (R42) -/
  nextId : Byte
  /-- next palette number (R42) -/
  nextAttr : BitVec 2
  /-- next low plane (R42) -/
  nextLo : Byte
  /-- next high plane (R42) -/
  nextHi : Byte
  /-- background pattern shifter, low plane (R43) -/
  bgPatLo : BitVec 16
  /-- background pattern shifter, high plane (R43) -/
  bgPatHi : BitVec 16
  /-- background attribute shifter, bit 0 (R43) -/
  bgAttLo : BitVec 16
  /-- background attribute shifter, bit 1 (R43) -/
  bgAttHi : BitVec 16
  /-- scanline, -1 to 260 (R44) -/
  scanline : Int
  /-- cycle within the scanline, 0 to 340 (R44) -/
  cycle : Nat
  /-- odd frame flag (R45) -/
  oddFrame : Bool
  /-- frame complete flag, cleared by the host only (R45) -/
  frameComplete : Bool
  /-- NMI request line (R46) -/
  nmiRequest : Bool
  /-- nametable memory, 2048 bytes (R47) -/
  nametable : Memory 8
  /-- palette memory, 32 bytes (R47) -/
  palette : Memory 8
  /-- pattern memory, 8192 bytes (R47) -/
  pattern : Memory 8
  /-- frame buffer: pixel (x, y) at y * 256 + x, 6 bits each (R48) -/
  frame : Memory 6
deriving DecidableEq, Repr

/-- The ORCH agent with its DMA engine (R50 to R56). -/
structure Orch where
  /-- `system_counter` (R50) -/
  counter : Nat
  /-- DMA source page (R51) -/
  dmaPage : Byte
  /-- DMA index (R51) -/
  dmaIndex : Byte
  /-- DMA holding latch (R51) -/
  dmaData : Byte
  /-- DMA in flight (R51) -/
  dmaActive : Bool
  /-- DMA still waits for its alignment cycle (R51) -/
  dmaAlign : Bool
  /-- work memory, 2048 bytes (R52) -/
  workRam : Memory 8
  /-- controller shift register 0 (R53) -/
  shift0 : Byte
  /-- controller shift register 1 (R53) -/
  shift1 : Byte
  /-- queued sound register writes, oldest first (R54) -/
  soundQueue : List (Word × Byte)
  /-- accumulated audio time in seconds (R56) -/
  audioTime : Rat
deriving DecidableEq, Repr

/-- The nametable mirroring a cartridge reports (R103, D30). -/
inductive Mirroring where
  | vertical
  | horizontal
  /-- any other map: is logical table 0, 1, 2, 3 in internal bank 1 (OPEN parameter MIRRORING) -/
  | custom (t0 t1 t2 t3 : Bool)
deriving DecidableEq, Repr

/-- One memory chip of a concrete cartridge (log entry 3): it claims the reads of `size` addresses from `base`, and the
writes to them if it is writable. An address not listed in `cells` reads as `fill`. -/
structure Chip where
  base     : Nat
  size     : Nat
  writable : Bool
  fill     : Byte
  cells    : Memory 8
deriving DecidableEq, Repr

/-- The cartridge as the block sees it (R84, R85; log entry 3). With `oracle` set every answer is a free value; without
it the answers come from the chips, the mirroring and the IRQ level given here. No chips and no IRQ is an empty slot. -/
structure Cart where
  /-- an arbitrary cartridge (U16) -/
  oracle : Bool
  /-- the model's own field: how many answers an arbitrary cartridge has given -/
  asks : Nat
  /-- what claims CPU addresses, first match first -/
  cpuChips : List Chip
  /-- what claims PPU addresses, first match first -/
  ppuChips : List Chip
  /-- `mirroring_mode()` -/
  mirroring : Mirroring
  /-- `irq_pending()` -/
  irq : Bool
deriving DecidableEq, Repr

/-- The inputs of R453 that the host drives between ticks. -/
structure Inputs where
  /-- the reset event is waiting to be taken (R530) -/
  reset : Bool
  /-- controller snapshot 0 (R53) -/
  controller0 : Byte
  /-- controller snapshot 1 (R53) -/
  controller1 : Byte
deriving DecidableEq, Repr

/-- The output pulses of R453 in the last system tick (the model's own field, log entry 8). -/
structure Outputs where
  /-- `on_scanline_end` (R434) -/
  scanlineEnd : Bool
  /-- `irq_clear` (R465) -/
  irqClear : Bool
  /-- `sound.clock()` (R470) -/
  soundClock : Bool
  /-- `sound.write_register`, in order (R470) -/
  soundWrites : List (Word × Byte)
  /-- the sample handed to the host; `sample_due` is 1 exactly when there is one (R472) -/
  sample : Option (BitVec 32)
deriving DecidableEq, Repr

/-- The OPEN parameters of R7 that the model takes as an argument (log entries 5 and 6). No step changes them. -/
structure Params where
  /-- RESET_CYCLES (D5) -/
  resetCycles : Nat
  /-- IRQ_CYCLES (D5) -/
  irqCycles : Nat
  /-- NMI_CYCLES (D5) -/
  nmiCycles : Nat
  /-- GRAPHICS_CLOCK_HZ (D29) -/
  graphicsClockHz : Rat
deriving DecidableEq, Repr

/-- The whole machine. -/
structure State where
  /-- CPU agent -/
  cpu : Cpu
  /-- PPU agent -/
  ppu : Ppu
  /-- ORCH agent -/
  orch : Orch
  /-- the cartridge in the slot -/
  cart : Cart
  /-- inputs from the host -/
  inputs : Inputs
  /-- outputs of the last tick -/
  outputs : Outputs
  /-- parameters -/
  params : Params
deriving DecidableEq, Repr

/-- Why the machine stops with a fault. It has NO constructor: "The block raises no fault" (R490, R12), and every state
has a next state. Nobody raises one; that is safe, since no step stops where the hardware goes on. -/
inductive Fault where
deriving DecidableEq, Repr

/-- Why a step has no meaning. -/
inductive Refusal where
  /-- Raised only by an arm of `exec` for an instruction that has no meaning yet. Safe: the model stops where the
  hardware goes on. No arm raises it now. -/
  | notModelled (mnemonic : String)
deriving DecidableEq, Repr

/-- A step's outcome. -/
abbrev Result := Host.Outcome State Fault Refusal

/-- A slot of secondary OAM that holds 0xFF bytes and empty shifters (R60, R408). -/
def SpriteSlot.blank : SpriteSlot :=
  { y := 0xFF, tile := 0xFF, attr := 0xFF, x := 0xFF, lo := 0, hi := 0 }

/-- The status register after reset: 0x24 (R60, D4). -/
def Flags.reset : Flags := { c := false, z := false, i := true, d := false, v := false, n := false }

/-- The PPU after a reset (R60), with the memories that a reset leaves unchanged. -/
def Ppu.resetWith (oam nametable palette pattern : Memory 8) (frame : Memory 6) : Ppu :=
  { ctrl := 0, mask := 0, overflow := false, spr0Hit := false, vblank := false, v := 0, t := 0, fineX := 0,
    w := false, dataBuffer := 0, oamAddr := 0, oam := oam, slots := List.replicate 8 SpriteSlot.blank,
    spriteCount := 0, spr0Possible := false, spr0Rendered := false, nextId := 0, nextAttr := 0, nextLo := 0,
    nextHi := 0, bgPatLo := 0, bgPatHi := 0, bgAttLo := 0, bgAttHi := 0, scanline := -1, cycle := 0,
    oddFrame := false, frameComplete := false, nmiRequest := false, nametable := nametable, palette := palette,
    pattern := pattern, frame := frame }

/-- ORCH after a reset (R60), with the work memory that a reset leaves unchanged. -/
def Orch.resetWith (workRam : Memory 8) : Orch :=
  { counter := 0, dmaPage := 0, dmaIndex := 0, dmaData := 0, dmaActive := false, dmaAlign := true,
    workRam := workRam, shift0 := 0, shift1 := 0, soundQueue := [], audioTime := 0 }

/-- An empty cartridge slot (DESIGN CHOICE, log entries 3 and 19). -/
def Cart.empty : Cart :=
  { oracle := false, asks := 0, cpuChips := [], ppuChips := [], mirroring := .vertical, irq := false }

/-- No output pulse. -/
def Outputs.none : Outputs :=
  { scanlineEnd := false, irqClear := false, soundClock := false, soundWrites := [], sample := .none }

/-- The parameters at the defaults of R7; the graphics clock is a DESIGN CHOICE (log entry 6). -/
def Params.defaults : Params :=
  { resetCycles := 8, irqCycles := 7, nmiCycles := 8, graphicsClockHz := 5369318 }

/-- The machine right after the reset at power-on (R60, R531, R532), with no cartridge in the slot, so that both bytes
of the reset vector read as OPEN_BUS_VALUE and PC is 0x0000 (R91, R540). -/
def State.reset : State :=
  { cpu := { a := 0x00, x := 0x00, y := 0x00, s := 0xFD, p := Flags.reset, pc := 0x0000, cycles := 8 }
    ppu := Ppu.resetWith [] [] [] [] []
    orch := Orch.resetWith []
    cart := Cart.empty
    inputs := { reset := false, controller0 := 0x00, controller1 := 0x00 }
    outputs := Outputs.none
    params := Params.defaults }

end Sys2Proof.Machine
end

