-- ==== Sys2Proof/Machine/Flags.lean ====
section
/-! DEFINITION. The status register as a byte (R23, R24) and every flag computation (R9, R226, R227). -/

namespace Sys2Proof.Machine

/-- The status register P as a byte (R23): N V U B D I Z C from bit 7 down, with U = 1 and B = 0 (R24). -/
def Flags.toByte (p : Flags) : Byte :=
  BitVec.ofBool p.n ++ (BitVec.ofBool p.v ++ (1#1 ++ (0#1 ++ (BitVec.ofBool p.d ++ (BitVec.ofBool p.i ++
    (BitVec.ofBool p.z ++ BitVec.ofBool p.c))))))

/-- The register that a popped byte loads: bits 4 and 5 are ignored (R24, R263, R283). -/
def Flags.ofByte (b : Byte) : Flags :=
  { c := b.getLsbD 0, z := b.getLsbD 1, i := b.getLsbD 2, d := b.getLsbD 3, v := b.getLsbD 6, n := b.getLsbD 7 }

/-- The byte an interrupt sequence pushes: Break cleared, Unused set (R24, R494). -/
def Flags.interruptByte (p : Flags) : Byte := (p.toByte &&& 0xEF) ||| 0x20

/-- The byte BRK and PHP push: Break and Unused set (R24, R262, R281). -/
def Flags.breakByte (p : Flags) : Byte := p.toByte ||| 0x30

/-- `SetZN(v)` (R9). -/
def Flags.setZN (v : Byte) (p : Flags) : Flags := { p with z := decide (v = 0), n := v.getLsbD 7 }

/-- What the adder gives: the 8-bit result, the carry out and the signed overflow. -/
structure Sum where
  r    : Byte
  cout : Bool
  vout : Bool
deriving DecidableEq, Repr

/-- `AddWithCarry(a, m, c)` (R226), on the 9-bit intermediate sum. -/
def addWithCarry (a m : Byte) (c : Bool) : Sum :=
  let sum9 : BitVec 9 := a.setWidth 9 + m.setWidth 9 + (BitVec.ofBool c).setWidth 9
  let r : Byte := sum9.setWidth 8
  { r := r, cout := sum9.getLsbD 8, vout := decide (((a ^^^ r) &&& (m ^^^ r) &&& 0x80) ≠ 0) }

/-- C, V, Z and N from a sum (R210, R211). -/
def Flags.ofSum (u : Sum) (p : Flags) : Flags := { p.setZN u.r with c := u.cout, v := u.vout }

/-- `Compare(r, m)` (R227): C is the unsigned comparison, N is bit 7 of the difference. -/
def Flags.compare (r m : Byte) (p : Flags) : Flags :=
  { p with c := decide (m ≤ r), z := decide (r = m), n := (r - m).getLsbD 7 }

end Sys2Proof.Machine
end

