-- ==== Sys2Proof/Machine/Cart.lean ====
section
/-! DEFINITION. The cartridge interface (R84, R85, R103, R465): an arbitrary cartridge answers every question with a fresh
free value (U16); a concrete one answers from its chips. -/

namespace Sys2Proof.Machine

/-- Does the chip cover the address. -/
def Chip.covers (c : Chip) (a : Nat) : Bool := decide (c.base ≤ a) && decide (a < c.base + c.size)

/-- The byte the chip holds at an address. -/
def Chip.byte (c : Chip) (a : Nat) : Byte := Memory.read (fun _ => c.fill) c.cells a

/-- The answer of the first chip that covers the address. -/
def chipsRead : List Chip → Nat → Option Byte
  | [], _ => none
  | c :: rest, a => if c.covers a then some (c.byte a) else chipsRead rest a

/-- The chips after a write, if one of them claims it: the first writable one that covers the address. -/
def chipsWrite : List Chip → Nat → Byte → Option (List Chip)
  | [], _, _ => none
  | c :: rest, a, v =>
    if c.covers a && c.writable then some ({ c with cells := Memory.putFill c.fill c.cells a v } :: rest)
    else (chipsWrite rest a v).map (c :: ·)

/-- An arbitrary cartridge has answered once more. -/
def Cart.asked (c : Cart) : Cart := { c with asks := c.asks + 1 }

/-- `CartCpuRead` (R84): `some b` is `claimed(b)`, `none` is `declined`. -/
def Cart.cpuRead (a : Word) (c : Cart) : Option Byte × Cart :=
  if c.oracle then (Config.cartCpuRead c.asks a, c.asked) else (chipsRead c.cpuChips a.toNat, c)

/-- `CartCpuWrite` (R84): true is `claimed`. -/
def Cart.cpuWrite (a : Word) (v : Byte) (c : Cart) : Bool × Cart :=
  if c.oracle then (Config.cartCpuWrite c.asks a v, c.asked)
  else
    match chipsWrite c.cpuChips a.toNat v with
    | some chips => (true, { c with cpuChips := chips })
    | none => (false, c)

/-- `CartPpuRead` (R85). -/
def Cart.ppuRead (a : BitVec 14) (c : Cart) : Option Byte × Cart :=
  if c.oracle then (Config.cartPpuRead c.asks a, c.asked) else (chipsRead c.ppuChips a.toNat, c)

/-- `CartPpuWrite` (R85). -/
def Cart.ppuWrite (a : BitVec 14) (v : Byte) (c : Cart) : Bool × Cart :=
  if c.oracle then (Config.cartPpuWrite c.asks a v, c.asked)
  else
    match chipsWrite c.ppuChips a.toNat v with
    | some chips => (true, { c with ppuChips := chips })
    | none => (false, c)

/-- `MIRRORING(k)` of R103: is logical nametable `k` in internal bank 1. -/
def Mirroring.bank (m : Mirroring) (k : BitVec 2) : Bool :=
  match m with
  | .vertical => k.getLsbD 0
  | .horizontal => k.getLsbD 1
  | .custom t0 t1 t2 t3 => if k = 0 then t0 else if k = 1 then t1 else if k = 2 then t2 else t3

/-- `mirroring_mode()`, sampled at each access (R103). -/
def Cart.bank (k : BitVec 2) (c : Cart) : Bool × Cart :=
  if c.oracle then (Config.cartMirroring c.asks k, c.asked) else (c.mirroring.bank k, c)

/-- `irq_pending()` (R465). -/
def Cart.irqPending (c : Cart) : Bool × Cart :=
  if c.oracle then (Config.cartIrqPending c.asks, c.asked) else (c.irq, c)

/-- `irq_clear()` (R465). -/
def Cart.irqClear (c : Cart) : Cart := { c with irq := false }

end Sys2Proof.Machine
end

