-- ==== Sys2Proof/Machine/PpuRegs.lean ====
section
/-! DEFINITION. The fields of the PPU registers (R30 to R33) and the small register updates. -/

namespace Sys2Proof.Machine

/-- VRAM increment step: true adds 32 (R30, bit 2). -/
def Ppu.incBy32 (p : Ppu) : Bool := p.ctrl.getLsbD 2
/-- Pattern table of 8 by 8 sprites (R30, bit 3). -/
def Ppu.sprTable (p : Ppu) : Bool := p.ctrl.getLsbD 3
/-- Pattern table of the background (R30, bit 4). -/
def Ppu.bgTable (p : Ppu) : Bool := p.ctrl.getLsbD 4
/-- Sprite size: true is 8 by 16 (R30, bit 5). -/
def Ppu.tallSprites (p : Ppu) : Bool := p.ctrl.getLsbD 5
/-- NMI-enable (R30, bit 7). -/
def Ppu.nmiEnabled (p : Ppu) : Bool := p.ctrl.getLsbD 7

/-- Grayscale (R31, bit 0). -/
def Ppu.gray (p : Ppu) : Bool := p.mask.getLsbD 0
/-- Background shown in the leftmost 8 pixels (R31, bit 1). -/
def Ppu.bgLeft (p : Ppu) : Bool := p.mask.getLsbD 1
/-- Sprites shown in the leftmost 8 pixels (R31, bit 2). -/
def Ppu.sprLeft (p : Ppu) : Bool := p.mask.getLsbD 2
/-- Background shown (R31, bit 3). -/
def Ppu.showBg (p : Ppu) : Bool := p.mask.getLsbD 3
/-- Sprites shown (R31, bit 4). -/
def Ppu.showSpr (p : Ppu) : Bool := p.mask.getLsbD 4
/-- "Rendering enabled" (R15, R31). -/
def Ppu.rendering (p : Ppu) : Bool := p.showBg || p.showSpr

/-- A scroll register from its fields, high to low (R33). -/
def scroll (fineY : BitVec 3) (ntY ntX : BitVec 1) (coarseY coarseX : BitVec 5) : BitVec 15 :=
  fineY ++ (ntY ++ (ntX ++ (coarseY ++ coarseX)))

/-- `coarse_x`, bits 4:0 (R33). -/
def coarseX (v : BitVec 15) : BitVec 5 := v.extractLsb' 0 5
/-- `coarse_y`, bits 9:5 (R33). -/
def coarseY (v : BitVec 15) : BitVec 5 := v.extractLsb' 5 5
/-- `nt_x`, bit 10 (R33). -/
def ntX (v : BitVec 15) : BitVec 1 := v.extractLsb' 10 1
/-- `nt_y`, bit 11 (R33). -/
def ntY (v : BitVec 15) : BitVec 1 := v.extractLsb' 11 1
/-- `fine_y`, bits 14:12 (R33). -/
def fineY (v : BitVec 15) : BitVec 3 := v.extractLsb' 12 3

/-- `v` with `coarse_x` and `nt_x` replaced. -/
def withX (v : BitVec 15) (nx : BitVec 1) (cx : BitVec 5) : BitVec 15 :=
  scroll (fineY v) (ntY v) nx (coarseY v) cx

/-- `v` with `fine_y`, `nt_y` and `coarse_y` replaced. -/
def withY (v : BitVec 15) (fy : BitVec 3) (ny : BitVec 1) (cy : BitVec 5) : BitVec 15 :=
  scroll fy ny (ntX v) cy (coarseX v)

/-- The step added to `v` by a data-port access, modulo 2^15 (R352). -/
def Ppu.stepV (p : Ppu) : Ppu := { p with v := p.v + (if p.incBy32 then 32 else 1) }

/-- The read mask of the palette (R105). -/
def Ppu.paletteMask (p : Ppu) : Byte := if p.gray then 0x30 else 0x3F

/-- `PalIndex(a)` (R104): 0x10, 0x14, 0x18, 0x1C are mirrors of the index 0x10 lower. -/
def palIndex (a : BitVec 14) : Nat :=
  let i := a.toNat % 32
  if i = 0x10 then 0x00 else if i = 0x14 then 0x04 else if i = 0x18 then 0x08 else if i = 0x1C then 0x0C else i

/-- The byte of OAM at an index (R38, R106). -/
def Ppu.oamByte (p : Ppu) (a : Nat) : Byte := Memory.read Config.initOam p.oam a

/-- Store a byte of OAM (R346, R460). -/
def Ppu.setOam (p : Ppu) (a : Byte) (v : Byte) : Ppu := { p with oam := Memory.put p.oam a.toNat v }

/-- The colour index of a pixel of the frame (R48). -/
def Ppu.pixel (p : Ppu) (x y : Nat) : BitVec 6 := Memory.read Config.initFrame p.frame (y * 256 + x)

/-- The RGB value the host shows for a pixel (R48, R426). -/
def Ppu.pixelRgb (p : Ppu) (x y : Nat) : BitVec 24 := Config.paletteRgb (p.pixel x y)

/-- Replace the PPU by a function of itself. -/
def State.mapPpu (f : Ppu → Ppu) (s : State) : State := { s with ppu := f s.ppu }

/-- Replace the cartridge. -/
def State.setCart (c : Cart) (s : State) : State := { s with cart := c }

/-- Replace ORCH by a function of itself. -/
def State.mapOrch (f : Orch → Orch) (s : State) : State := { s with orch := f s.orch }

end Sys2Proof.Machine
end

