-- ==== Sys2Proof/Machine/PpuBus.lean ====
section
/-! DEFINITION. The PPU bus (R100, R101): below 0x3F00 the cartridge first, then pattern and nametable memory; from 0x3F00
up palette memory (ruling D31). -/

namespace Sys2Proof.Machine

/-- `NtIndex(a)` (R103): the index in `nametable_ram`, with the cartridge's mirroring sampled now. -/
def ntIndex (a : BitVec 14) (c : Cart) : Nat × Cart :=
  let b := c.bank (a.extractLsb' 10 2)
  ((if b.1 then 1024 else 0) + a.toNat % 1024, b.2)

/-- The cartridge's answer to a PPU read. Ruling D31 asks it only below 0x3F00, so that every palette read is masked
(R105): DEDUCED, log entry 10. -/
def ppuReadClaim (a : BitVec 14) (c : Cart) : Option Byte × Cart := if a.toNat < 0x3F00 then c.ppuRead a else (none, c)

/-- The cartridge's answer to a PPU write, asked below 0x3F00 only (D31; log entry 10). -/
def ppuWriteClaim (a : BitVec 14) (v : Byte) (c : Cart) : Bool × Cart :=
  if a.toNat < 0x3F00 then c.ppuWrite a v else (false, c)

/-- The internal target of a PPU read that the cartridge does not take (R100). -/
def ppuReadInside (a : BitVec 14) (s : State) : Byte × State :=
  if a.toNat < 0x2000 then (Memory.read Config.initPattern s.ppu.pattern a.toNat, s)
  else if a.toNat < 0x3F00 then
    let i := ntIndex a s.cart
    (Memory.read Config.initNametable s.ppu.nametable i.1, s.setCart i.2)
  else (Memory.read Config.initPalette s.ppu.palette (palIndex a) &&& s.ppu.paletteMask, s)

/-- `PpuRead(addr)` (R100, D31): the address is reduced to 14 bits, and what the cartridge does not claim is read inside. -/
def ppuRead (addr : Word) (s : State) : Byte × State :=
  let a := addr.setWidth 14
  let r := ppuReadClaim a s.cart
  match r.1 with
  | some b => (b, s.setCart r.2)
  | none => ppuReadInside a (s.setCart r.2)

/-- The internal target of a PPU write that the cartridge does not take (R101). -/
def ppuWriteInside (a : BitVec 14) (v : Byte) (s : State) : State :=
  if a.toNat < 0x2000 then s.mapPpu fun p => { p with pattern := Memory.put p.pattern a.toNat v }
  else if a.toNat < 0x3F00 then
    let i := ntIndex a s.cart
    (s.setCart i.2).mapPpu fun p => { p with nametable := Memory.put p.nametable i.1 v }
  else s.mapPpu fun p => { p with palette := Memory.put p.palette (palIndex a) v }

/-- `PpuWrite(addr, v)` (R101, D31). -/
def ppuWrite (addr : Word) (v : Byte) (s : State) : State :=
  let a := addr.setWidth 14
  let r := ppuWriteClaim a v s.cart
  if r.1 then s.setCart r.2 else ppuWriteInside a v (s.setCart r.2)

end Sys2Proof.Machine
end

