-- ==== Sys2Proof/Machine/Ports.lean ====
section
/-! DEFINITION. The 8 CPU-visible PPU ports (spec/47_ppu_ports.md). -/

namespace Sys2Proof.Machine

/-- The byte a Status read returns (R344): the three flags over the low five bits of the data buffer. -/
def Ppu.statusByte (p : Ppu) : Byte :=
  BitVec.ofBool p.vblank ++ (BitVec.ofBool p.spr0Hit ++ (BitVec.ofBool p.overflow ++ p.dataBuffer.extractLsb' 0 5))

/-- Port 2, Status, read (R344). -/
def readStatus (s : State) : Byte × State :=
  (s.ppu.statusByte, s.mapPpu fun p => { p with vblank := false, w := false })

/-- Port 4, OAM data, read (R346). -/
def readOamData (s : State) : Byte × State := (s.ppu.oamByte s.ppu.oamAddr.toNat, s)

/-- Port 7, Data, read (R349): delayed by one access except in palette memory. -/
def readData (s : State) : Byte × State :=
  let r := ppuRead (s.ppu.v.setWidth 16) s
  let direct := decide (0x3F00 ≤ (s.ppu.v.setWidth 14).toNat)
  (if direct then r.1 else s.ppu.dataBuffer, r.2.mapPpu fun p => { p with dataBuffer := r.1 }.stepV)

/-- `PpuPortRead(n)` (R341); a write-only port reads as OPEN_BUS_VALUE and changes nothing (R351). -/
def portRead (n : BitVec 3) (s : State) : Byte × State :=
  match n.toNat with
  | 2 => readStatus s
  | 4 => readOamData s
  | 7 => readData s
  | _ => (Config.openBusValue, s)

/-- Port 0, Control, write (R342). -/
def writeControl (d : Byte) (p : Ppu) : Ppu :=
  { p with
    ctrl := d
    t := scroll (fineY p.t) (d.extractLsb' 1 1) (d.extractLsb' 0 1) (coarseY p.t) (coarseX p.t) }

/-- Port 1, Mask, write (R343). -/
def writeMask (d : Byte) (p : Ppu) : Ppu := { p with mask := d }

/-- Port 3, OAM address, write (R345). -/
def writeOamAddr (d : Byte) (p : Ppu) : Ppu := { p with oamAddr := d }

/-- Port 4, OAM data, write (R346). -/
def writeOamData (d : Byte) (p : Ppu) : Ppu := { p.setOam p.oamAddr d with oamAddr := p.oamAddr + 1 }

/-- Port 5, Scroll, write (R347). -/
def writeScroll (d : Byte) (p : Ppu) : Ppu :=
  if p.w then
    { p with t := scroll (d.extractLsb' 0 3) (ntY p.t) (ntX p.t) (d.extractLsb' 3 5) (coarseX p.t), w := false }
  else
    { p with
      fineX := d.extractLsb' 0 3
      t := scroll (fineY p.t) (ntY p.t) (ntX p.t) (coarseY p.t) (d.extractLsb' 3 5)
      w := true }

/-- Port 6, Address, write (R348). -/
def writeAddress (d : Byte) (p : Ppu) : Ppu :=
  if p.w then
    let t := p.t.extractLsb' 8 7 ++ d
    { p with t := t, v := t, w := false }
  else { p with t := (0#1 ++ (d.extractLsb' 0 6 ++ p.t.extractLsb' 0 8) : BitVec 15), w := true }

/-- Port 7, Data, write (R350). -/
def writeData (d : Byte) (s : State) : State :=
  (ppuWrite (s.ppu.v.setWidth 16) d s).mapPpu Ppu.stepV

/-- `PpuPortWrite(n, d)` (R341); a write to port 2 changes nothing (R351). -/
def portWrite (n : BitVec 3) (d : Byte) (s : State) : State :=
  match n.toNat with
  | 0 => s.mapPpu (writeControl d)
  | 1 => s.mapPpu (writeMask d)
  | 3 => s.mapPpu (writeOamAddr d)
  | 4 => s.mapPpu (writeOamData d)
  | 5 => s.mapPpu (writeScroll d)
  | 6 => s.mapPpu (writeAddress d)
  | 7 => writeData d s
  | _ => s

end Sys2Proof.Machine
end

