-- ==== Sys2Proof/Machine/Ops.lean ====
section
/-! DEFINITION. The named operations: CPU registers, the CPU bus (R86, R87) with work memory, controllers and the DMA
port, the stack (R10, R21), taking a trap and returning from one (R494, R498, R263), the reset, NMI and IRQ sequences
(R495 to R497) and the system reset (R530). -/

namespace Sys2Proof.Machine

/-! CPU registers (R20 to R23, R27). -/

/-- `A <- v` -/
def State.setA (v : Byte) (s : State) : State := { s with cpu := { s.cpu with a := v } }
/-- `X <- v` -/
def State.setX (v : Byte) (s : State) : State := { s with cpu := { s.cpu with x := v } }
/-- `Y <- v` -/
def State.setY (v : Byte) (s : State) : State := { s with cpu := { s.cpu with y := v } }
/-- `S <- v` -/
def State.setS (v : Byte) (s : State) : State := { s with cpu := { s.cpu with s := v } }
/-- `P <- p` -/
def State.setP (p : Flags) (s : State) : State := { s with cpu := { s.cpu with p := p } }
/-- `PC <- w` -/
def State.setPc (w : Word) (s : State) : State := { s with cpu := { s.cpu with pc := w } }
/-- `cycles_remaining <- n` -/
def State.setCycles (n : Nat) (s : State) : State := { s with cpu := { s.cpu with cycles := n } }
/-- Change the flags by a function of them. -/
def State.mapP (f : Flags → Flags) (s : State) : State := s.setP (f s.cpu.p)
/-- `SetZN(v)` (R9) -/
def State.setZN (v : Byte) (s : State) : State := s.mapP (Flags.setZN v)

/-! The CPU bus (R80 to R91). -/

/-- The byte of work memory an address in its window selects (R83). -/
def State.workByte (s : State) (a : Word) : Byte := Memory.read Config.initWorkMemory s.orch.workRam (a.toNat % 2048)

/-- Store a byte of work memory (R83, R87). -/
def State.setWork (a : Word) (v : Byte) (s : State) : State :=
  s.mapOrch fun o => { o with workRam := Memory.put o.workRam (a.toNat % 2048) v }

/-- `ControllerLatch()` (R90): both snapshots are latched, whatever the data. -/
def controllerLatch (s : State) : State :=
  s.mapOrch fun o => { o with shift0 := s.inputs.controller0, shift1 := s.inputs.controller1 }

/-- The byte a controller read returns: bit 7 of the shift register in bit 0 (R90). -/
def controllerBit (shift : Byte) : Byte := (BitVec.ofBool (shift.getLsbD 7)).setWidth 8

/-- `ControllerRead(0)` (R90). -/
def controllerRead0 (s : State) : Byte × State :=
  (controllerBit s.orch.shift0, s.mapOrch fun o => { o with shift0 := o.shift0 <<< 1 })

/-- `ControllerRead(1)` (R90). -/
def controllerRead1 (s : State) : Byte × State :=
  (controllerBit s.orch.shift1, s.mapOrch fun o => { o with shift1 := o.shift1 <<< 1 })

/-- `DmaStart(d)` (R456): `dma_align` and `dma_data` are not written. -/
def dmaStart (d : Byte) (s : State) : State :=
  s.mapOrch fun o => { o with dmaPage := d, dmaIndex := 0, dmaActive := true }

/-- The internal target of a CPU read, when the cartridge declines (R82, R86). -/
def memReadInside (a : Word) (s : State) : Byte × State :=
  if a.toNat < 0x2000 then (s.workByte a, s)
  else if a.toNat < 0x4000 then portRead (a.extractLsb' 0 3) s
  else if a = 0x4016 then controllerRead0 s
  else if a = 0x4017 then controllerRead1 s
  else (Config.openBusValue, s)

/-- `MemRead(addr, 1)` (R86): the cartridge is asked first (R81). -/
def memRead (a : Word) (s : State) : Byte × State :=
  let r := s.cart.cpuRead a
  match r.1 with
  | some b => (b, s.setCart r.2)
  | none => memReadInside a (s.setCart r.2)

/-- Is the address a sound register for writes (R82, R89). -/
def isSoundWrite (a : Word) : Bool :=
  (decide (0x4000 ≤ a.toNat) && decide (a.toNat ≤ 0x4013)) || decide (a = 0x4015) || decide (a = 0x4017)

/-- The internal target of a CPU write, when the cartridge declines (R82, R87). -/
def memWriteInside (a : Word) (v : Byte) (s : State) : State :=
  if a.toNat < 0x2000 then s.setWork a v
  else if a.toNat < 0x4000 then portWrite (a.extractLsb' 0 3) v s
  else if isSoundWrite a then s.mapOrch fun o => { o with soundQueue := o.soundQueue ++ [(a, v)] }
  else if a = 0x4014 then dmaStart v s
  else if a = 0x4016 then controllerLatch s
  else s

/-- `MemWrite(addr, 1, v)` (R87). -/
def memWrite (a : Word) (v : Byte) (s : State) : State :=
  let r := s.cart.cpuWrite a v
  if r.1 then s.setCart r.2 else memWriteInside a v (s.setCart r.2)

/-- `Read16(addr)`, that is `MemRead(addr, 2)` (R10): low byte, then high byte. -/
def read16 (a : Word) (s : State) : Word × State :=
  let l := memRead a s
  let h := memRead (a + 1) l.2
  (wordOf h.1 l.1, h.2)

/-! The stack (R10, R21). -/

/-- `Push(v)` -/
def push (v : Byte) (s : State) : State :=
  let t := memWrite (stackAddr s.cpu.s) v s
  t.setS (t.cpu.s - 1)

/-- `Pop()` -/
def pop (s : State) : Byte × State :=
  let t := s.setS (s.cpu.s + 1)
  memRead (stackAddr t.cpu.s) t

/-- Push a 16-bit value, high byte first (R92). -/
def pushWord (w : Word) (s : State) : State := push (lo w) (push (hi w) s)

/-! Traps (R493 to R507). -/

/-- Taking a trap, shared by BRK, NMI and IRQ (R262, R494, R505): the return address and a status byte are pushed,
Interrupt-disable is set and PC is loaded from the vector. The caller gives the return address and the status byte. -/
def trapEntry (ret : Word) (status : Byte) (vector : Word) (s : State) : State :=
  let t := push status (pushWord ret s)
  let u := t.setP { t.cpu.p with i := true }
  let v := read16 vector u
  v.2.setPc v.1

/-- Returning from a trap, RTI (R263, R506): the status byte, then PC low, then PC high. -/
def trapReturn (s : State) : State :=
  let p := pop s
  let t := p.2.setP (Flags.ofByte p.1)
  let l := pop t
  let h := pop l.2
  h.2.setPc (wordOf h.1 l.1)

/-- `InterruptEntry(vec)` (R494). -/
def interruptEntry (vector : Word) (s : State) : State := trapEntry s.cpu.pc s.cpu.p.interruptByte vector s

/-- `Nmi()` (R496). -/
def nmi (s : State) : State := (interruptEntry Config.nmiVector s).setCycles s.params.nmiCycles

/-- `Irq()` (R497, R503): honoured only if Interrupt-disable is clear. -/
def irq (s : State) : State :=
  if s.cpu.p.i then s else (interruptEntry Config.irqVector s).setCycles s.params.irqCycles

/-- `Reset()`, the CPU part of a system reset (R495). -/
def cpuReset (s : State) : State :=
  let t := { s with
    cpu := { a := 0, x := 0, y := 0, s := Config.resetStackPointer, p := Flags.ofByte Config.resetStatus,
             pc := s.cpu.pc, cycles := s.params.resetCycles } }
  let v := read16 Config.resetVector t
  v.2.setPc v.1

/-- The system reset (R530): PPU and ORCH take the values of R60, the memories and the frame stay as they are (R531),
then the CPU's `Reset()` runs. The reset event and the output pulses are spent (log entries 7 and 8). The cartridge stands as
it is, its chips' cells and its IRQ level included: the spec says only that it "resets itself" (R60, last row) and not to
what (DESIGN CHOICE, log entry 11). -/
def systemReset (s : State) : State :=
  cpuReset { s with
    ppu := Ppu.resetWith s.ppu.oam s.ppu.nametable s.ppu.palette s.ppu.pattern s.ppu.frame
    orch := Orch.resetWith s.orch.workRam
    inputs := { s.inputs with reset := false }
    outputs := Outputs.none }

/-- The host takes the finished frame and clears the flag (R45, R454), between two ticks. -/
def hostTakeFrame (s : State) : State := s.mapPpu fun p => { p with frameComplete := false }

end Sys2Proof.Machine
end

