-- ==== Sys2Proof/Machine/Operands.lean ====
section
/-! DEFINITION. The 13 addressing modes (R173 to R185), the operand helpers (R186), the cost rule (R171), and the shapes
that the instructions share. When these run, the instruction's bytes have been fetched and PC is past them (R22). -/

namespace Sys2Proof.Machine

/-- Where an instruction's operand is. -/
inductive Place where
  | none                -- no operand
  | acc                 -- the accumulator
  | imm (b : Byte)      -- the immediate byte, read as the instruction was fetched (R175, log entry 14)
  | mem (ea : Word)     -- the effective address
deriving DecidableEq, Repr

/-- What a mode gives: the place, the `extra_mode` signal (R171) and the state after its pointer reads. -/
structure Resolved where
  place : Place
  extra : Bool
  state : State

/-- A pointer in zero page: low byte, then high byte, wrapping within the page (R181, R182). -/
def zeroPagePointer (z : Byte) (s : State) : Word × State :=
  let l := memRead (zeroPage z) s
  let h := memRead (zeroPage (z + 1)) l.2
  (wordOf h.1 l.1, h.2)

/-- The pointer of the indirect mode, with the page-boundary defect (R180). -/
def jumpPointer (w : Word) (s : State) : Word × State :=
  let l := memRead w s
  let h := memRead (wordOf (hi w) (lo w + 1)) l.2
  (wordOf h.1 l.1, h.2)

/-- `Mode(mode)` (R173 to R185). -/
def resolve (o : Operand) (s : State) : Resolved :=
  match o with
  | .imp => ⟨.none, false, s⟩
  | .acc => ⟨.acc, false, s⟩
  | .imm b => ⟨.imm b, false, s⟩
  | .zp b => ⟨.mem (zeroPage b), false, s⟩
  | .zpx b => ⟨.mem (zeroPage (b + s.cpu.x)), false, s⟩
  | .zpy b => ⟨.mem (zeroPage (b + s.cpu.y)), false, s⟩
  | .abs w => ⟨.mem w, false, s⟩
  | .ind w => let p := jumpPointer w s; ⟨.mem p.1, false, p.2⟩
  | .izx b => let p := zeroPagePointer (b + s.cpu.x) s; ⟨.mem p.1, false, p.2⟩
  | .izy b =>
    let p := zeroPagePointer b s
    let ea := p.1 + zext16 p.2.cpu.y
    ⟨.mem ea, decide (page ea ≠ page p.1), p.2⟩
  | .abx w => let ea := w + zext16 s.cpu.x; ⟨.mem ea, decide (page ea ≠ page w), s⟩
  | .aby w => let ea := w + zext16 s.cpu.y; ⟨.mem ea, decide (page ea ≠ page w), s⟩
  | .rel b => ⟨.mem (s.cpu.pc + sext16 b), false, s⟩

/-- `Operand(mode, ea)` (R186). A mode without an operand gives OPEN_BUS_VALUE; no instruction asks it. -/
def readPlace (p : Place) (s : State) : Byte × State :=
  match p with
  | .none => (Config.openBusValue, s)
  | .acc => (s.cpu.a, s)
  | .imm b => (b, s)
  | .mem ea => memRead ea s

/-- `Result(mode, ea, v)` (R186). Only `acc` and `mem` places are ever written. -/
def writePlace (p : Place) (v : Byte) (s : State) : State :=
  match p with
  | .none => s
  | .acc => s.setA v
  | .imm _ => s
  | .mem ea => memWrite ea v s

/-- The effective address of a place, for the instructions that use it as a value (R250, R251, R253). -/
def Place.addr : Place → Word
  | .mem ea => ea
  | _ => 0

/-- The end of an instruction: its cost goes to `cycles_remaining` (R170, R171) and the machine goes on. -/
def finish (cost : Nat) (s : State) : Result := .next (s.setCycles cost)

/-- An instruction that works on registers or the stack only. -/
def execImplied (base : Nat) (op : State → State) (s : State) : Result := finish base (op s)

/-- An instruction that reads its operand: `m <- Operand(mode, ea)`, then `op m`. `extraOp` is its `extra_op` (R171). -/
def execRead (o : Operand) (base : Nat) (extraOp : Bool) (op : Byte → State → State) (s : State) : Result :=
  let r := resolve o s
  let m := readPlace r.place r.state
  finish (base + (r.extra && extraOp).toNat) (op m.1 m.2)

/-- An instruction that stores a register value and reads nothing at `ea`; `extra_op` is 0. -/
def execStore (o : Operand) (base : Nat) (value : Cpu → Byte) (s : State) : Result :=
  let r := resolve o s
  finish base (writePlace r.place (value r.state.cpu) r.state)

/-- A read-modify-write instruction: one read, one write of `f m C`, then `op m r` on the registers; `extra_op` is 0. -/
def execModify (o : Operand) (base : Nat) (f : Byte → Bool → Byte) (op : Byte → Byte → State → State)
    (s : State) : Result :=
  let r := resolve o s
  let m := readPlace r.place r.state
  let v := f m.1 m.2.cpu.p.c
  finish base (op m.1 v (writePlace r.place v m.2))

/-- An instruction whose mode is resolved and that makes no access at `ea`; `extra_op` is 0 (R320 to R323). -/
def execNoAccess (o : Operand) (base : Nat) (s : State) : Result := finish base (resolve o s).state

end Sys2Proof.Machine
end

