-- ==== Sys2Proof/Machine/Arith.lean ====
section
/-! DEFINITION. Arithmetic, logic, compare, increment and decrement (spec/42_arithmetic_logic.md). Arithmetic is always
binary: the Decimal flag changes nothing (R26, R225). -/

namespace Sys2Proof.Machine

/-- The sum into A, with C, V, Z and N from it (R210). -/
def addToA (m : Byte) (c : Bool) (s : State) : State :=
  let u := addWithCarry s.cpu.a m c
  (s.setA u.r).mapP (Flags.ofSum u)

/-- ADC (R210). -/
def opAdc (m : Byte) (s : State) : State := addToA m s.cpu.p.c s
/-- SBC (R211): the operand is complemented. -/
def opSbc (m : Byte) (s : State) : State := addToA (m ^^^ 0xFF) s.cpu.p.c s
/-- `A <- v; SetZN(A)`, shared by the logic operations (R212 to R214). -/
def resultInA (v : Byte) (s : State) : State := (s.setA v).setZN v
/-- AND (R212). -/
def opAnd (m : Byte) (s : State) : State := resultInA (s.cpu.a &&& m) s
/-- ORA (R213). -/
def opOra (m : Byte) (s : State) : State := resultInA (s.cpu.a ||| m) s
/-- EOR (R214). -/
def opEor (m : Byte) (s : State) : State := resultInA (s.cpu.a ^^^ m) s
/-- BIT (R218): Z from the AND, N and V from the operand. -/
def opBit (m : Byte) (s : State) : State :=
  s.mapP fun p => { p with z := decide (s.cpu.a &&& m = 0), n := m.getLsbD 7, v := m.getLsbD 6 }
/-- CMP (R215). -/
def opCmp (m : Byte) (s : State) : State := s.mapP (Flags.compare s.cpu.a m)
/-- CPX (R216). -/
def opCpx (m : Byte) (s : State) : State := s.mapP (Flags.compare s.cpu.x m)
/-- CPY (R217). -/
def opCpy (m : Byte) (s : State) : State := s.mapP (Flags.compare s.cpu.y m)
/-- The result of INC (R219). -/
def incByte (m : Byte) (_ : Bool) : Byte := m + 1
/-- The result of DEC (R220). -/
def decByte (m : Byte) (_ : Bool) : Byte := m - 1
/-- `SetZN(r)` after a read-modify-write (R219, R220). -/
def flagsOfResult (_ r : Byte) (s : State) : State := s.setZN r
/-- INX (R221). -/
def opInx (s : State) : State := (s.setX (s.cpu.x + 1)).setZN (s.cpu.x + 1)
/-- INY (R222). -/
def opIny (s : State) : State := (s.setY (s.cpu.y + 1)).setZN (s.cpu.y + 1)
/-- DEX (R223). -/
def opDex (s : State) : State := (s.setX (s.cpu.x - 1)).setZN (s.cpu.x - 1)
/-- DEY (R224). -/
def opDey (s : State) : State := (s.setY (s.cpu.y - 1)).setZN (s.cpu.y - 1)

/-! The meanings, one per opcode of the table. -/

/-- ADC izx, 0x61 (R210). -/
def execAdcIzx (b : Byte) (s : State) : Result := execRead (.izx b) 6 true opAdc s

/-- ADC zp, 0x65 (R210). -/
def execAdcZp (b : Byte) (s : State) : Result := execRead (.zp b) 3 true opAdc s

/-- ADC imm, 0x69 (R210). -/
def execAdcImm (b : Byte) (s : State) : Result := execRead (.imm b) 2 true opAdc s

/-- ADC abs, 0x6D (R210). -/
def execAdcAbs (w : Word) (s : State) : Result := execRead (.abs w) 4 true opAdc s

/-- ADC izy, 0x71 (R210). -/
def execAdcIzy (b : Byte) (s : State) : Result := execRead (.izy b) 5 true opAdc s

/-- ADC zpx, 0x75 (R210). -/
def execAdcZpx (b : Byte) (s : State) : Result := execRead (.zpx b) 4 true opAdc s

/-- ADC aby, 0x79 (R210). -/
def execAdcAby (w : Word) (s : State) : Result := execRead (.aby w) 4 true opAdc s

/-- ADC abx, 0x7D (R210). -/
def execAdcAbx (w : Word) (s : State) : Result := execRead (.abx w) 4 true opAdc s

/-- SBC izx, 0xE1 (R211). -/
def execSbcIzx (b : Byte) (s : State) : Result := execRead (.izx b) 6 true opSbc s

/-- SBC zp, 0xE5 (R211). -/
def execSbcZp (b : Byte) (s : State) : Result := execRead (.zp b) 3 true opSbc s

/-- SBC imm, 0xE9 (R211). -/
def execSbcImm (b : Byte) (s : State) : Result := execRead (.imm b) 2 true opSbc s

/-- SBC abs, 0xED (R211). -/
def execSbcAbs (w : Word) (s : State) : Result := execRead (.abs w) 4 true opSbc s

/-- SBC izy, 0xF1 (R211). -/
def execSbcIzy (b : Byte) (s : State) : Result := execRead (.izy b) 5 true opSbc s

/-- SBC zpx, 0xF5 (R211). -/
def execSbcZpx (b : Byte) (s : State) : Result := execRead (.zpx b) 4 true opSbc s

/-- SBC aby, 0xF9 (R211). -/
def execSbcAby (w : Word) (s : State) : Result := execRead (.aby w) 4 true opSbc s

/-- SBC abx, 0xFD (R211). -/
def execSbcAbx (w : Word) (s : State) : Result := execRead (.abx w) 4 true opSbc s

/-- AND izx, 0x21 (R212). -/
def execAndIzx (b : Byte) (s : State) : Result := execRead (.izx b) 6 true opAnd s

/-- AND zp, 0x25 (R212). -/
def execAndZp (b : Byte) (s : State) : Result := execRead (.zp b) 3 true opAnd s

/-- AND imm, 0x29 (R212). -/
def execAndImm (b : Byte) (s : State) : Result := execRead (.imm b) 2 true opAnd s

/-- AND abs, 0x2D (R212). -/
def execAndAbs (w : Word) (s : State) : Result := execRead (.abs w) 4 true opAnd s

/-- AND izy, 0x31 (R212). -/
def execAndIzy (b : Byte) (s : State) : Result := execRead (.izy b) 5 true opAnd s

/-- AND zpx, 0x35 (R212). -/
def execAndZpx (b : Byte) (s : State) : Result := execRead (.zpx b) 4 true opAnd s

/-- AND aby, 0x39 (R212). -/
def execAndAby (w : Word) (s : State) : Result := execRead (.aby w) 4 true opAnd s

/-- AND abx, 0x3D (R212). -/
def execAndAbx (w : Word) (s : State) : Result := execRead (.abx w) 4 true opAnd s

/-- ORA izx, 0x01 (R213). -/
def execOraIzx (b : Byte) (s : State) : Result := execRead (.izx b) 6 true opOra s

/-- ORA zp, 0x05 (R213). -/
def execOraZp (b : Byte) (s : State) : Result := execRead (.zp b) 3 true opOra s

/-- ORA imm, 0x09 (R213). -/
def execOraImm (b : Byte) (s : State) : Result := execRead (.imm b) 2 true opOra s

/-- ORA abs, 0x0D (R213). -/
def execOraAbs (w : Word) (s : State) : Result := execRead (.abs w) 4 true opOra s

/-- ORA izy, 0x11 (R213). -/
def execOraIzy (b : Byte) (s : State) : Result := execRead (.izy b) 5 true opOra s

/-- ORA zpx, 0x15 (R213). -/
def execOraZpx (b : Byte) (s : State) : Result := execRead (.zpx b) 4 true opOra s

/-- ORA aby, 0x19 (R213). -/
def execOraAby (w : Word) (s : State) : Result := execRead (.aby w) 4 true opOra s

/-- ORA abx, 0x1D (R213). -/
def execOraAbx (w : Word) (s : State) : Result := execRead (.abx w) 4 true opOra s

/-- EOR izx, 0x41 (R214). -/
def execEorIzx (b : Byte) (s : State) : Result := execRead (.izx b) 6 true opEor s

/-- EOR zp, 0x45 (R214). -/
def execEorZp (b : Byte) (s : State) : Result := execRead (.zp b) 3 true opEor s

/-- EOR imm, 0x49 (R214). -/
def execEorImm (b : Byte) (s : State) : Result := execRead (.imm b) 2 true opEor s

/-- EOR abs, 0x4D (R214). -/
def execEorAbs (w : Word) (s : State) : Result := execRead (.abs w) 4 true opEor s

/-- EOR izy, 0x51 (R214). -/
def execEorIzy (b : Byte) (s : State) : Result := execRead (.izy b) 5 true opEor s

/-- EOR zpx, 0x55 (R214). -/
def execEorZpx (b : Byte) (s : State) : Result := execRead (.zpx b) 4 true opEor s

/-- EOR aby, 0x59 (R214). -/
def execEorAby (w : Word) (s : State) : Result := execRead (.aby w) 4 true opEor s

/-- EOR abx, 0x5D (R214). -/
def execEorAbx (w : Word) (s : State) : Result := execRead (.abx w) 4 true opEor s

/-- CMP izx, 0xC1 (R215). -/
def execCmpIzx (b : Byte) (s : State) : Result := execRead (.izx b) 6 true opCmp s

/-- CMP zp, 0xC5 (R215). -/
def execCmpZp (b : Byte) (s : State) : Result := execRead (.zp b) 3 true opCmp s

/-- CMP imm, 0xC9 (R215). -/
def execCmpImm (b : Byte) (s : State) : Result := execRead (.imm b) 2 true opCmp s

/-- CMP abs, 0xCD (R215). -/
def execCmpAbs (w : Word) (s : State) : Result := execRead (.abs w) 4 true opCmp s

/-- CMP izy, 0xD1 (R215). -/
def execCmpIzy (b : Byte) (s : State) : Result := execRead (.izy b) 5 true opCmp s

/-- CMP zpx, 0xD5 (R215). -/
def execCmpZpx (b : Byte) (s : State) : Result := execRead (.zpx b) 4 true opCmp s

/-- CMP aby, 0xD9 (R215). -/
def execCmpAby (w : Word) (s : State) : Result := execRead (.aby w) 4 true opCmp s

/-- CMP abx, 0xDD (R215). -/
def execCmpAbx (w : Word) (s : State) : Result := execRead (.abx w) 4 true opCmp s

/-- CPX imm, 0xE0 (R216). -/
def execCpxImm (b : Byte) (s : State) : Result := execRead (.imm b) 2 false opCpx s

/-- CPX zp, 0xE4 (R216). -/
def execCpxZp (b : Byte) (s : State) : Result := execRead (.zp b) 3 false opCpx s

/-- CPX abs, 0xEC (R216). -/
def execCpxAbs (w : Word) (s : State) : Result := execRead (.abs w) 4 false opCpx s

/-- CPY imm, 0xC0 (R217). -/
def execCpyImm (b : Byte) (s : State) : Result := execRead (.imm b) 2 false opCpy s

/-- CPY zp, 0xC4 (R217). -/
def execCpyZp (b : Byte) (s : State) : Result := execRead (.zp b) 3 false opCpy s

/-- CPY abs, 0xCC (R217). -/
def execCpyAbs (w : Word) (s : State) : Result := execRead (.abs w) 4 false opCpy s

/-- BIT zp, 0x24 (R218). -/
def execBitZp (b : Byte) (s : State) : Result := execRead (.zp b) 3 false opBit s

/-- BIT abs, 0x2C (R218). -/
def execBitAbs (w : Word) (s : State) : Result := execRead (.abs w) 4 false opBit s

/-- INC zp, 0xE6 (R219). -/
def execIncZp (b : Byte) (s : State) : Result := execModify (.zp b) 5 incByte flagsOfResult s

/-- INC abs, 0xEE (R219). -/
def execIncAbs (w : Word) (s : State) : Result := execModify (.abs w) 6 incByte flagsOfResult s

/-- INC zpx, 0xF6 (R219). -/
def execIncZpx (b : Byte) (s : State) : Result := execModify (.zpx b) 6 incByte flagsOfResult s

/-- INC abx, 0xFE (R219). -/
def execIncAbx (w : Word) (s : State) : Result := execModify (.abx w) 7 incByte flagsOfResult s

/-- DEC zp, 0xC6 (R220). -/
def execDecZp (b : Byte) (s : State) : Result := execModify (.zp b) 5 decByte flagsOfResult s

/-- DEC abs, 0xCE (R220). -/
def execDecAbs (w : Word) (s : State) : Result := execModify (.abs w) 6 decByte flagsOfResult s

/-- DEC zpx, 0xD6 (R220). -/
def execDecZpx (b : Byte) (s : State) : Result := execModify (.zpx b) 6 decByte flagsOfResult s

/-- DEC abx, 0xDE (R220). -/
def execDecAbx (w : Word) (s : State) : Result := execModify (.abx w) 7 decByte flagsOfResult s

/-- INX imp, 0xE8 (R221). -/
def execInx (s : State) : Result := execImplied 2 opInx s

/-- INY imp, 0xC8 (R222). -/
def execIny (s : State) : Result := execImplied 2 opIny s

/-- DEX imp, 0xCA (R223). -/
def execDex (s : State) : Result := execImplied 2 opDex s

/-- DEY imp, 0x88 (R224). -/
def execDey (s : State) : Result := execImplied 2 opDey s

end Sys2Proof.Machine
end

