-- ==== Sys2Proof/Machine/Control.lean ====
section
/-! DEFINITION. Jumps, subroutines, branches, BRK and RTI (spec/44_control_flow.md). -/

namespace Sys2Proof.Machine

/-- `PC <- ea` (R250); nothing is read at `ea`. -/
def execJump (o : Operand) (base : Nat) (s : State) : Result :=
  let r := resolve o s
  finish base (r.state.setPc r.place.addr)

/-- JSR (R251): the address of its last byte is pushed, high byte first. -/
def opJsr (target : Word) (s : State) : State := (pushWord (s.cpu.pc - 1) s).setPc target

/-- RTS (R252). -/
def opRts (s : State) : State :=
  let l := pop s
  let h := pop l.2
  h.2.setPc (wordOf h.1 l.1 + 1)

/-- `Branch(cond, ea)` (R253): 1 more cycle when taken, 2 when taken to another page. -/
def execBranch (b : Byte) (base : Nat) (cond : Flags → Bool) (s : State) : Result :=
  let ea := (resolve (.rel b) s).place.addr
  if cond s.cpu.p then finish (base + 1 + (decide (page ea ≠ page s.cpu.pc)).toNat) (s.setPc ea)
  else finish base s

/-- BRK as a trap (R262, R498): the padding byte is skipped and Break is set in the pushed byte. -/
def opBrk (s : State) : State := trapEntry (s.cpu.pc + 1) s.cpu.p.breakByte Config.irqVector s

/-! The meanings, one per opcode of the table. -/

/-- JMP abs, 0x4C (R250). -/
def execJmpAbs (w : Word) (s : State) : Result := execJump (.abs w) 3 s

/-- JMP ind, 0x6C (R250). -/
def execJmpInd (w : Word) (s : State) : Result := execJump (.ind w) 5 s

/-- JSR abs, 0x20 (R251). -/
def execJsr (w : Word) (s : State) : Result := execImplied 6 (opJsr w) s

/-- RTS imp, 0x60 (R252). -/
def execRts (s : State) : Result := execImplied 6 opRts s

/-- BCC rel, 0x90 (R254). -/
def execBcc (b : Byte) (s : State) : Result := execBranch b 2 (fun p => !p.c) s

/-- BCS rel, 0xB0 (R255). -/
def execBcs (b : Byte) (s : State) : Result := execBranch b 2 (fun p => p.c) s

/-- BEQ rel, 0xF0 (R256). -/
def execBeq (b : Byte) (s : State) : Result := execBranch b 2 (fun p => p.z) s

/-- BNE rel, 0xD0 (R257). -/
def execBne (b : Byte) (s : State) : Result := execBranch b 2 (fun p => !p.z) s

/-- BMI rel, 0x30 (R258). -/
def execBmi (b : Byte) (s : State) : Result := execBranch b 2 (fun p => p.n) s

/-- BPL rel, 0x10 (R259). -/
def execBpl (b : Byte) (s : State) : Result := execBranch b 2 (fun p => !p.n) s

/-- BVC rel, 0x50 (R260). -/
def execBvc (b : Byte) (s : State) : Result := execBranch b 2 (fun p => !p.v) s

/-- BVS rel, 0x70 (R261). -/
def execBvs (b : Byte) (s : State) : Result := execBranch b 2 (fun p => p.v) s

/-- BRK imp, 0x00 (R262). -/
def execBrk (s : State) : Result := execImplied 7 opBrk s

/-- RTI imp, 0x40 (R263). -/
def execRti (s : State) : Result := execImplied 6 trapReturn s

end Sys2Proof.Machine
end

