-- ==== Sys2Proof/Machine/LoadStore.lean ====
section
/-! DEFINITION. Loads, stores and register transfers (spec/41_load_store_transfer.md). -/

namespace Sys2Proof.Machine

/-- `A <- m; SetZN(A)` (R190). -/
def opLda (m : Byte) (s : State) : State := (s.setA m).setZN m
/-- `X <- m; SetZN(X)` (R191). -/
def opLdx (m : Byte) (s : State) : State := (s.setX m).setZN m
/-- `Y <- m; SetZN(Y)` (R192). -/
def opLdy (m : Byte) (s : State) : State := (s.setY m).setZN m
/-- `X <- A; SetZN(X)` (R196). -/
def opTax (s : State) : State := opLdx s.cpu.a s
/-- `Y <- A; SetZN(Y)` (R197). -/
def opTay (s : State) : State := opLdy s.cpu.a s
/-- `A <- X; SetZN(A)` (R198). -/
def opTxa (s : State) : State := opLda s.cpu.x s
/-- `A <- Y; SetZN(A)` (R199). -/
def opTya (s : State) : State := opLda s.cpu.y s
/-- `X <- S; SetZN(X)` (R200). -/
def opTsx (s : State) : State := opLdx s.cpu.s s
/-- `S <- X`, no flag (R201). -/
def opTxs (s : State) : State := s.setS s.cpu.x

/-! The meanings, one per opcode of the table. -/

/-- LDA izx, 0xA1 (R190). -/
def execLdaIzx (b : Byte) (s : State) : Result := execRead (.izx b) 6 true opLda s

/-- LDA zp, 0xA5 (R190). -/
def execLdaZp (b : Byte) (s : State) : Result := execRead (.zp b) 3 true opLda s

/-- LDA imm, 0xA9 (R190). -/
def execLdaImm (b : Byte) (s : State) : Result := execRead (.imm b) 2 true opLda s

/-- LDA abs, 0xAD (R190). -/
def execLdaAbs (w : Word) (s : State) : Result := execRead (.abs w) 4 true opLda s

/-- LDA izy, 0xB1 (R190). -/
def execLdaIzy (b : Byte) (s : State) : Result := execRead (.izy b) 5 true opLda s

/-- LDA zpx, 0xB5 (R190). -/
def execLdaZpx (b : Byte) (s : State) : Result := execRead (.zpx b) 4 true opLda s

/-- LDA aby, 0xB9 (R190). -/
def execLdaAby (w : Word) (s : State) : Result := execRead (.aby w) 4 true opLda s

/-- LDA abx, 0xBD (R190). -/
def execLdaAbx (w : Word) (s : State) : Result := execRead (.abx w) 4 true opLda s

/-- LDX imm, 0xA2 (R191). -/
def execLdxImm (b : Byte) (s : State) : Result := execRead (.imm b) 2 true opLdx s

/-- LDX zp, 0xA6 (R191). -/
def execLdxZp (b : Byte) (s : State) : Result := execRead (.zp b) 3 true opLdx s

/-- LDX abs, 0xAE (R191). -/
def execLdxAbs (w : Word) (s : State) : Result := execRead (.abs w) 4 true opLdx s

/-- LDX zpy, 0xB6 (R191). -/
def execLdxZpy (b : Byte) (s : State) : Result := execRead (.zpy b) 4 true opLdx s

/-- LDX aby, 0xBE (R191). -/
def execLdxAby (w : Word) (s : State) : Result := execRead (.aby w) 4 true opLdx s

/-- LDY imm, 0xA0 (R192). -/
def execLdyImm (b : Byte) (s : State) : Result := execRead (.imm b) 2 true opLdy s

/-- LDY zp, 0xA4 (R192). -/
def execLdyZp (b : Byte) (s : State) : Result := execRead (.zp b) 3 true opLdy s

/-- LDY abs, 0xAC (R192). -/
def execLdyAbs (w : Word) (s : State) : Result := execRead (.abs w) 4 true opLdy s

/-- LDY zpx, 0xB4 (R192). -/
def execLdyZpx (b : Byte) (s : State) : Result := execRead (.zpx b) 4 true opLdy s

/-- LDY abx, 0xBC (R192). -/
def execLdyAbx (w : Word) (s : State) : Result := execRead (.abx w) 4 true opLdy s

/-- STA izx, 0x81 (R193). -/
def execStaIzx (b : Byte) (s : State) : Result := execStore (.izx b) 6 Cpu.a s

/-- STA zp, 0x85 (R193). -/
def execStaZp (b : Byte) (s : State) : Result := execStore (.zp b) 3 Cpu.a s

/-- STA abs, 0x8D (R193). -/
def execStaAbs (w : Word) (s : State) : Result := execStore (.abs w) 4 Cpu.a s

/-- STA izy, 0x91 (R193). -/
def execStaIzy (b : Byte) (s : State) : Result := execStore (.izy b) 6 Cpu.a s

/-- STA zpx, 0x95 (R193). -/
def execStaZpx (b : Byte) (s : State) : Result := execStore (.zpx b) 4 Cpu.a s

/-- STA aby, 0x99 (R193). -/
def execStaAby (w : Word) (s : State) : Result := execStore (.aby w) 5 Cpu.a s

/-- STA abx, 0x9D (R193). -/
def execStaAbx (w : Word) (s : State) : Result := execStore (.abx w) 5 Cpu.a s

/-- STX zp, 0x86 (R194). -/
def execStxZp (b : Byte) (s : State) : Result := execStore (.zp b) 3 Cpu.x s

/-- STX abs, 0x8E (R194). -/
def execStxAbs (w : Word) (s : State) : Result := execStore (.abs w) 4 Cpu.x s

/-- STX zpy, 0x96 (R194). -/
def execStxZpy (b : Byte) (s : State) : Result := execStore (.zpy b) 4 Cpu.x s

/-- STY zp, 0x84 (R195). -/
def execStyZp (b : Byte) (s : State) : Result := execStore (.zp b) 3 Cpu.y s

/-- STY abs, 0x8C (R195). -/
def execStyAbs (w : Word) (s : State) : Result := execStore (.abs w) 4 Cpu.y s

/-- STY zpx, 0x94 (R195). -/
def execStyZpx (b : Byte) (s : State) : Result := execStore (.zpx b) 4 Cpu.y s

/-- TAX imp, 0xAA (R196). -/
def execTax (s : State) : Result := execImplied 2 opTax s

/-- TAY imp, 0xA8 (R197). -/
def execTay (s : State) : Result := execImplied 2 opTay s

/-- TXA imp, 0x8A (R198). -/
def execTxa (s : State) : Result := execImplied 2 opTxa s

/-- TYA imp, 0x98 (R199). -/
def execTya (s : State) : Result := execImplied 2 opTya s

/-- TSX imp, 0xBA (R200). -/
def execTsx (s : State) : Result := execImplied 2 opTsx s

/-- TXS imp, 0x9A (R201). -/
def execTxs (s : State) : Result := execImplied 2 opTxs s

end Sys2Proof.Machine
end

