-- ==== Sys2Proof/Machine/Shift.lean ====
section
/-! DEFINITION. Shifts and rotates (spec/43_shift_rotate.md), each by one bit position. -/

namespace Sys2Proof.Machine

/-- The result of ASL (R240). -/
def aslByte (m : Byte) (_ : Bool) : Byte := m <<< 1
/-- The result of LSR (R241). -/
def lsrByte (m : Byte) (_ : Bool) : Byte := m >>> 1
/-- The result of ROL (R242): the old carry enters bit 0. -/
def rolByte (m : Byte) (c : Bool) : Byte := (m <<< 1) ||| (BitVec.ofBool c).setWidth 8
/-- The result of ROR (R243): the old carry enters bit 7. -/
def rorByte (m : Byte) (c : Bool) : Byte := (m >>> 1) ||| ((BitVec.ofBool c).setWidth 8 <<< 7)
/-- C from bit 7 of the operand, Z and N from the result (R240, R242). -/
def flagsLeft (m r : Byte) (s : State) : State := s.mapP fun p => { p.setZN r with c := m.getLsbD 7 }
/-- C from bit 0 of the operand, Z and N from the result (R241, R243). -/
def flagsRight (m r : Byte) (s : State) : State := s.mapP fun p => { p.setZN r with c := m.getLsbD 0 }

/-! The meanings, one per opcode of the table. -/

/-- ASL zp, 0x06 (R240). -/
def execAslZp (b : Byte) (s : State) : Result := execModify (.zp b) 5 aslByte flagsLeft s

/-- ASL acc, 0x0A (R240). -/
def execAslAcc (s : State) : Result := execModify .acc 2 aslByte flagsLeft s

/-- ASL abs, 0x0E (R240). -/
def execAslAbs (w : Word) (s : State) : Result := execModify (.abs w) 6 aslByte flagsLeft s

/-- ASL zpx, 0x16 (R240). -/
def execAslZpx (b : Byte) (s : State) : Result := execModify (.zpx b) 6 aslByte flagsLeft s

/-- ASL abx, 0x1E (R240). -/
def execAslAbx (w : Word) (s : State) : Result := execModify (.abx w) 7 aslByte flagsLeft s

/-- LSR zp, 0x46 (R241). -/
def execLsrZp (b : Byte) (s : State) : Result := execModify (.zp b) 5 lsrByte flagsRight s

/-- LSR acc, 0x4A (R241). -/
def execLsrAcc (s : State) : Result := execModify .acc 2 lsrByte flagsRight s

/-- LSR abs, 0x4E (R241). -/
def execLsrAbs (w : Word) (s : State) : Result := execModify (.abs w) 6 lsrByte flagsRight s

/-- LSR zpx, 0x56 (R241). -/
def execLsrZpx (b : Byte) (s : State) : Result := execModify (.zpx b) 6 lsrByte flagsRight s

/-- LSR abx, 0x5E (R241). -/
def execLsrAbx (w : Word) (s : State) : Result := execModify (.abx w) 7 lsrByte flagsRight s

/-- ROL zp, 0x26 (R242). -/
def execRolZp (b : Byte) (s : State) : Result := execModify (.zp b) 5 rolByte flagsLeft s

/-- ROL acc, 0x2A (R242). -/
def execRolAcc (s : State) : Result := execModify .acc 2 rolByte flagsLeft s

/-- ROL abs, 0x2E (R242). -/
def execRolAbs (w : Word) (s : State) : Result := execModify (.abs w) 6 rolByte flagsLeft s

/-- ROL zpx, 0x36 (R242). -/
def execRolZpx (b : Byte) (s : State) : Result := execModify (.zpx b) 6 rolByte flagsLeft s

/-- ROL abx, 0x3E (R242). -/
def execRolAbx (w : Word) (s : State) : Result := execModify (.abx w) 7 rolByte flagsLeft s

/-- ROR zp, 0x66 (R243). -/
def execRorZp (b : Byte) (s : State) : Result := execModify (.zp b) 5 rorByte flagsRight s

/-- ROR acc, 0x6A (R243). -/
def execRorAcc (s : State) : Result := execModify .acc 2 rorByte flagsRight s

/-- ROR abs, 0x6E (R243). -/
def execRorAbs (w : Word) (s : State) : Result := execModify (.abs w) 6 rorByte flagsRight s

/-- ROR zpx, 0x76 (R243). -/
def execRorZpx (b : Byte) (s : State) : Result := execModify (.zpx b) 6 rorByte flagsRight s

/-- ROR abx, 0x7E (R243). -/
def execRorAbx (w : Word) (s : State) : Result := execModify (.abx w) 7 rorByte flagsRight s

end Sys2Proof.Machine
end

