-- ==== Sys2Proof/Machine/Stack.lean ====
section
/-! DEFINITION. Stack, flag and no-operation instructions (spec/45_stack_flags_system.md). -/

namespace Sys2Proof.Machine

/-- PHA (R280). -/
def opPha (s : State) : State := push s.cpu.a s
/-- PHP (R281). -/
def opPhp (s : State) : State := push s.cpu.p.breakByte s
/-- PLA (R282). -/
def opPla (s : State) : State :=
  let m := pop s
  (m.2.setA m.1).setZN m.1
/-- PLP (R283). -/
def opPlp (s : State) : State :=
  let m := pop s
  m.2.setP (Flags.ofByte m.1)

/-! The meanings, one per opcode of the table. -/

/-- PHA imp, 0x48 (R280). -/
def execPha (s : State) : Result := execImplied 3 opPha s

/-- PHP imp, 0x08 (R281). -/
def execPhp (s : State) : Result := execImplied 3 opPhp s

/-- PLA imp, 0x68 (R282). -/
def execPla (s : State) : Result := execImplied 4 opPla s

/-- PLP imp, 0x28 (R283). -/
def execPlp (s : State) : Result := execImplied 4 opPlp s

/-- CLC imp, 0x18 (R284). -/
def execClc (s : State) : Result := execImplied 2 (State.mapP fun p => { p with c := false }) s

/-- SEC imp, 0x38 (R285). -/
def execSec (s : State) : Result := execImplied 2 (State.mapP fun p => { p with c := true }) s

/-- CLI imp, 0x58 (R286). -/
def execCli (s : State) : Result := execImplied 2 (State.mapP fun p => { p with i := false }) s

/-- SEI imp, 0x78 (R287). -/
def execSei (s : State) : Result := execImplied 2 (State.mapP fun p => { p with i := true }) s

/-- CLD imp, 0xD8 (R288). -/
def execCld (s : State) : Result := execImplied 2 (State.mapP fun p => { p with d := false }) s

/-- SED imp, 0xF8 (R289). -/
def execSed (s : State) : Result := execImplied 2 (State.mapP fun p => { p with d := true }) s

/-- CLV imp, 0xB8 (R290). -/
def execClv (s : State) : Result := execImplied 2 (State.mapP fun p => { p with v := false }) s

/-- NOP imp, 0xEA (R291). -/
def execNop (s : State) : Result := execImplied 2 id s

end Sys2Proof.Machine
end

