-- ==== Sys2Proof/Machine/Unofficial.lean ====
section
/-! DEFINITION. The 105 unofficial opcodes (spec/46_unofficial.md), executed as its rules write them; the unstable ones
and JAM are no-operations of this hardware (R300, R317 to R324; log entry 1). -/

namespace Sys2Proof.Machine

/-- An operand that is read and discarded (R302, R303, R318, R319, R324). -/
def opDiscard (_ : Byte) (s : State) : State := s
/-- LAX (R304). -/
def opLax (m : Byte) (s : State) : State := ((s.setA m).setX m).setZN m
/-- SLO, after the write (R306). -/
def opSlo (m r : Byte) (s : State) : State := opOra r (s.mapP fun p => { p with c := m.getLsbD 7 })
/-- RLA, after the write (R307). -/
def opRla (m r : Byte) (s : State) : State := opAnd r (s.mapP fun p => { p with c := m.getLsbD 7 })
/-- SRE, after the write (R308). -/
def opSre (m r : Byte) (s : State) : State := opEor r (s.mapP fun p => { p with c := m.getLsbD 0 })
/-- RRA, after the write (R309): the carry in is the bit rotated out. -/
def opRra (m r : Byte) (s : State) : State := addToA r (m.getLsbD 0) s
/-- DCP, after the write (R310). -/
def opDcp (_ r : Byte) (s : State) : State := opCmp r s
/-- ISC, after the write (R311). -/
def opIsc (_ r : Byte) (s : State) : State := opSbc r s
/-- ANC (R312). -/
def opAnc (m : Byte) (s : State) : State := (opAnd m s).mapP fun p => { p with c := (s.cpu.a &&& m).getLsbD 7 }
/-- ALR (R313). -/
def opAlr (m : Byte) (s : State) : State :=
  let t := s.cpu.a &&& m
  resultInA (t >>> 1) (s.mapP fun p => { p with c := t.getLsbD 0 })
/-- ARR (R314): C and V from bits 6 and 5 of the result. -/
def opArr (m : Byte) (s : State) : State :=
  let r := rorByte (s.cpu.a &&& m) s.cpu.p.c
  (resultInA r s).mapP fun p => { p with c := r.getLsbD 6, v := r.getLsbD 6 ^^ r.getLsbD 5 }
/-- AXS (R315). -/
def opAxs (m : Byte) (s : State) : State :=
  let t := s.cpu.a &&& s.cpu.x
  (s.setX (t - m)).mapP fun p => { p.setZN (t - m) with c := decide (m ≤ t) }

/-! The meanings, one per opcode of the table. -/

/-- NOP imp, 0x1A (R301). -/
def execNopImp1A (s : State) : Result := execImplied 2 id s

/-- NOP imp, 0x3A (R301). -/
def execNopImp3A (s : State) : Result := execImplied 2 id s

/-- NOP imp, 0x5A (R301). -/
def execNopImp5A (s : State) : Result := execImplied 2 id s

/-- NOP imp, 0x7A (R301). -/
def execNopImp7A (s : State) : Result := execImplied 2 id s

/-- NOP imp, 0xDA (R301). -/
def execNopImpDA (s : State) : Result := execImplied 2 id s

/-- NOP imp, 0xFA (R301). -/
def execNopImpFA (s : State) : Result := execImplied 2 id s

/-- NOP imm, 0x80 (R302). -/
def execNopImm80 (b : Byte) (s : State) : Result := execRead (.imm b) 2 false opDiscard s

/-- NOP imm, 0x82 (R302). -/
def execNopImm82 (b : Byte) (s : State) : Result := execRead (.imm b) 2 false opDiscard s

/-- NOP imm, 0x89 (R302). -/
def execNopImm89 (b : Byte) (s : State) : Result := execRead (.imm b) 2 false opDiscard s

/-- NOP imm, 0xC2 (R302). -/
def execNopImmC2 (b : Byte) (s : State) : Result := execRead (.imm b) 2 false opDiscard s

/-- NOP imm, 0xE2 (R302). -/
def execNopImmE2 (b : Byte) (s : State) : Result := execRead (.imm b) 2 false opDiscard s

/-- NOP zp, 0x04 (R303). -/
def execNopZp04 (b : Byte) (s : State) : Result := execRead (.zp b) 3 false opDiscard s

/-- NOP abs, 0x0C (R303). -/
def execNopAbs0C (w : Word) (s : State) : Result := execRead (.abs w) 4 false opDiscard s

/-- NOP zpx, 0x14 (R303). -/
def execNopZpx14 (b : Byte) (s : State) : Result := execRead (.zpx b) 4 false opDiscard s

/-- NOP abx, 0x1C (R303). -/
def execNopAbx1C (w : Word) (s : State) : Result := execRead (.abx w) 4 true opDiscard s

/-- NOP zpx, 0x34 (R303). -/
def execNopZpx34 (b : Byte) (s : State) : Result := execRead (.zpx b) 4 false opDiscard s

/-- NOP abx, 0x3C (R303). -/
def execNopAbx3C (w : Word) (s : State) : Result := execRead (.abx w) 4 true opDiscard s

/-- NOP zp, 0x44 (R303). -/
def execNopZp44 (b : Byte) (s : State) : Result := execRead (.zp b) 3 false opDiscard s

/-- NOP zpx, 0x54 (R303). -/
def execNopZpx54 (b : Byte) (s : State) : Result := execRead (.zpx b) 4 false opDiscard s

/-- NOP abx, 0x5C (R303). -/
def execNopAbx5C (w : Word) (s : State) : Result := execRead (.abx w) 4 true opDiscard s

/-- NOP zp, 0x64 (R303). -/
def execNopZp64 (b : Byte) (s : State) : Result := execRead (.zp b) 3 false opDiscard s

/-- NOP zpx, 0x74 (R303). -/
def execNopZpx74 (b : Byte) (s : State) : Result := execRead (.zpx b) 4 false opDiscard s

/-- NOP abx, 0x7C (R303). -/
def execNopAbx7C (w : Word) (s : State) : Result := execRead (.abx w) 4 true opDiscard s

/-- NOP zpx, 0xD4 (R303). -/
def execNopZpxD4 (b : Byte) (s : State) : Result := execRead (.zpx b) 4 false opDiscard s

/-- NOP abx, 0xDC (R303). -/
def execNopAbxDC (w : Word) (s : State) : Result := execRead (.abx w) 4 true opDiscard s

/-- NOP zpx, 0xF4 (R303). -/
def execNopZpxF4 (b : Byte) (s : State) : Result := execRead (.zpx b) 4 false opDiscard s

/-- NOP abx, 0xFC (R303). -/
def execNopAbxFC (w : Word) (s : State) : Result := execRead (.abx w) 4 true opDiscard s

/-- LAX izx, 0xA3 (R304). -/
def execLaxIzx (b : Byte) (s : State) : Result := execRead (.izx b) 6 true opLax s

/-- LAX zp, 0xA7 (R304). -/
def execLaxZp (b : Byte) (s : State) : Result := execRead (.zp b) 3 true opLax s

/-- LAX abs, 0xAF (R304). -/
def execLaxAbs (w : Word) (s : State) : Result := execRead (.abs w) 4 true opLax s

/-- LAX izy, 0xB3 (R304). -/
def execLaxIzy (b : Byte) (s : State) : Result := execRead (.izy b) 5 true opLax s

/-- LAX zpy, 0xB7 (R304). -/
def execLaxZpy (b : Byte) (s : State) : Result := execRead (.zpy b) 4 true opLax s

/-- LAX aby, 0xBF (R304). -/
def execLaxAby (w : Word) (s : State) : Result := execRead (.aby w) 4 true opLax s

/-- SAX izx, 0x83 (R305). -/
def execSaxIzx (b : Byte) (s : State) : Result := execStore (.izx b) 6 (fun c => c.a &&& c.x) s

/-- SAX zp, 0x87 (R305). -/
def execSaxZp (b : Byte) (s : State) : Result := execStore (.zp b) 3 (fun c => c.a &&& c.x) s

/-- SAX abs, 0x8F (R305). -/
def execSaxAbs (w : Word) (s : State) : Result := execStore (.abs w) 4 (fun c => c.a &&& c.x) s

/-- SAX zpy, 0x97 (R305). -/
def execSaxZpy (b : Byte) (s : State) : Result := execStore (.zpy b) 4 (fun c => c.a &&& c.x) s

/-- SLO izx, 0x03 (R306). -/
def execSloIzx (b : Byte) (s : State) : Result := execModify (.izx b) 8 aslByte opSlo s

/-- SLO zp, 0x07 (R306). -/
def execSloZp (b : Byte) (s : State) : Result := execModify (.zp b) 5 aslByte opSlo s

/-- SLO abs, 0x0F (R306). -/
def execSloAbs (w : Word) (s : State) : Result := execModify (.abs w) 6 aslByte opSlo s

/-- SLO izy, 0x13 (R306). -/
def execSloIzy (b : Byte) (s : State) : Result := execModify (.izy b) 8 aslByte opSlo s

/-- SLO zpx, 0x17 (R306). -/
def execSloZpx (b : Byte) (s : State) : Result := execModify (.zpx b) 6 aslByte opSlo s

/-- SLO aby, 0x1B (R306). -/
def execSloAby (w : Word) (s : State) : Result := execModify (.aby w) 7 aslByte opSlo s

/-- SLO abx, 0x1F (R306). -/
def execSloAbx (w : Word) (s : State) : Result := execModify (.abx w) 7 aslByte opSlo s

/-- RLA izx, 0x23 (R307). -/
def execRlaIzx (b : Byte) (s : State) : Result := execModify (.izx b) 8 rolByte opRla s

/-- RLA zp, 0x27 (R307). -/
def execRlaZp (b : Byte) (s : State) : Result := execModify (.zp b) 5 rolByte opRla s

/-- RLA abs, 0x2F (R307). -/
def execRlaAbs (w : Word) (s : State) : Result := execModify (.abs w) 6 rolByte opRla s

/-- RLA izy, 0x33 (R307). -/
def execRlaIzy (b : Byte) (s : State) : Result := execModify (.izy b) 8 rolByte opRla s

/-- RLA zpx, 0x37 (R307). -/
def execRlaZpx (b : Byte) (s : State) : Result := execModify (.zpx b) 6 rolByte opRla s

/-- RLA aby, 0x3B (R307). -/
def execRlaAby (w : Word) (s : State) : Result := execModify (.aby w) 7 rolByte opRla s

/-- RLA abx, 0x3F (R307). -/
def execRlaAbx (w : Word) (s : State) : Result := execModify (.abx w) 7 rolByte opRla s

/-- SRE izx, 0x43 (R308). -/
def execSreIzx (b : Byte) (s : State) : Result := execModify (.izx b) 8 lsrByte opSre s

/-- SRE zp, 0x47 (R308). -/
def execSreZp (b : Byte) (s : State) : Result := execModify (.zp b) 5 lsrByte opSre s

/-- SRE abs, 0x4F (R308). -/
def execSreAbs (w : Word) (s : State) : Result := execModify (.abs w) 6 lsrByte opSre s

/-- SRE izy, 0x53 (R308). -/
def execSreIzy (b : Byte) (s : State) : Result := execModify (.izy b) 8 lsrByte opSre s

/-- SRE zpx, 0x57 (R308). -/
def execSreZpx (b : Byte) (s : State) : Result := execModify (.zpx b) 6 lsrByte opSre s

/-- SRE aby, 0x5B (R308). -/
def execSreAby (w : Word) (s : State) : Result := execModify (.aby w) 7 lsrByte opSre s

/-- SRE abx, 0x5F (R308). -/
def execSreAbx (w : Word) (s : State) : Result := execModify (.abx w) 7 lsrByte opSre s

/-- RRA izx, 0x63 (R309). -/
def execRraIzx (b : Byte) (s : State) : Result := execModify (.izx b) 8 rorByte opRra s

/-- RRA zp, 0x67 (R309). -/
def execRraZp (b : Byte) (s : State) : Result := execModify (.zp b) 5 rorByte opRra s

/-- RRA abs, 0x6F (R309). -/
def execRraAbs (w : Word) (s : State) : Result := execModify (.abs w) 6 rorByte opRra s

/-- RRA izy, 0x73 (R309). -/
def execRraIzy (b : Byte) (s : State) : Result := execModify (.izy b) 8 rorByte opRra s

/-- RRA zpx, 0x77 (R309). -/
def execRraZpx (b : Byte) (s : State) : Result := execModify (.zpx b) 6 rorByte opRra s

/-- RRA aby, 0x7B (R309). -/
def execRraAby (w : Word) (s : State) : Result := execModify (.aby w) 7 rorByte opRra s

/-- RRA abx, 0x7F (R309). -/
def execRraAbx (w : Word) (s : State) : Result := execModify (.abx w) 7 rorByte opRra s

/-- DCP izx, 0xC3 (R310). -/
def execDcpIzx (b : Byte) (s : State) : Result := execModify (.izx b) 8 decByte opDcp s

/-- DCP zp, 0xC7 (R310). -/
def execDcpZp (b : Byte) (s : State) : Result := execModify (.zp b) 5 decByte opDcp s

/-- DCP abs, 0xCF (R310). -/
def execDcpAbs (w : Word) (s : State) : Result := execModify (.abs w) 6 decByte opDcp s

/-- DCP izy, 0xD3 (R310). -/
def execDcpIzy (b : Byte) (s : State) : Result := execModify (.izy b) 8 decByte opDcp s

/-- DCP zpx, 0xD7 (R310). -/
def execDcpZpx (b : Byte) (s : State) : Result := execModify (.zpx b) 6 decByte opDcp s

/-- DCP aby, 0xDB (R310). -/
def execDcpAby (w : Word) (s : State) : Result := execModify (.aby w) 7 decByte opDcp s

/-- DCP abx, 0xDF (R310). -/
def execDcpAbx (w : Word) (s : State) : Result := execModify (.abx w) 7 decByte opDcp s

/-- ISC izx, 0xE3 (R311). -/
def execIscIzx (b : Byte) (s : State) : Result := execModify (.izx b) 8 incByte opIsc s

/-- ISC zp, 0xE7 (R311). -/
def execIscZp (b : Byte) (s : State) : Result := execModify (.zp b) 5 incByte opIsc s

/-- ISC abs, 0xEF (R311). -/
def execIscAbs (w : Word) (s : State) : Result := execModify (.abs w) 6 incByte opIsc s

/-- ISC izy, 0xF3 (R311). -/
def execIscIzy (b : Byte) (s : State) : Result := execModify (.izy b) 8 incByte opIsc s

/-- ISC zpx, 0xF7 (R311). -/
def execIscZpx (b : Byte) (s : State) : Result := execModify (.zpx b) 6 incByte opIsc s

/-- ISC aby, 0xFB (R311). -/
def execIscAby (w : Word) (s : State) : Result := execModify (.aby w) 7 incByte opIsc s

/-- ISC abx, 0xFF (R311). -/
def execIscAbx (w : Word) (s : State) : Result := execModify (.abx w) 7 incByte opIsc s

/-- ANC imm, 0x0B (R312). -/
def execAnc0B (b : Byte) (s : State) : Result := execRead (.imm b) 2 false opAnc s

/-- ANC imm, 0x2B (R312). -/
def execAnc2B (b : Byte) (s : State) : Result := execRead (.imm b) 2 false opAnc s

/-- ALR imm, 0x4B (R313). -/
def execAlr (b : Byte) (s : State) : Result := execRead (.imm b) 2 false opAlr s

/-- ARR imm, 0x6B (R314). -/
def execArr (b : Byte) (s : State) : Result := execRead (.imm b) 2 false opArr s

/-- AXS imm, 0xCB (R315). -/
def execAxs (b : Byte) (s : State) : Result := execRead (.imm b) 2 false opAxs s

/-- SBC imm, 0xEB (R316). -/
def execSbcImmEB (b : Byte) (s : State) : Result := execRead (.imm b) 2 true opSbc s

/-- JAM imp, 0x02 (R317). -/
def execJam02 (s : State) : Result := execImplied 2 id s

/-- JAM imp, 0x12 (R317). -/
def execJam12 (s : State) : Result := execImplied 2 id s

/-- JAM imp, 0x22 (R317). -/
def execJam22 (s : State) : Result := execImplied 2 id s

/-- JAM imp, 0x32 (R317). -/
def execJam32 (s : State) : Result := execImplied 2 id s

/-- JAM imp, 0x42 (R317). -/
def execJam42 (s : State) : Result := execImplied 2 id s

/-- JAM imp, 0x52 (R317). -/
def execJam52 (s : State) : Result := execImplied 2 id s

/-- JAM imp, 0x62 (R317). -/
def execJam62 (s : State) : Result := execImplied 2 id s

/-- JAM imp, 0x72 (R317). -/
def execJam72 (s : State) : Result := execImplied 2 id s

/-- JAM imp, 0x92 (R317). -/
def execJam92 (s : State) : Result := execImplied 2 id s

/-- JAM imp, 0xB2 (R317). -/
def execJamB2 (s : State) : Result := execImplied 2 id s

/-- JAM imp, 0xD2 (R317). -/
def execJamD2 (s : State) : Result := execImplied 2 id s

/-- JAM imp, 0xF2 (R317). -/
def execJamF2 (s : State) : Result := execImplied 2 id s

/-- ANE imm, 0x8B (R318). -/
def execAne (b : Byte) (s : State) : Result := execRead (.imm b) 2 false opDiscard s

/-- LXA imm, 0xAB (R319). -/
def execLxa (b : Byte) (s : State) : Result := execRead (.imm b) 2 false opDiscard s

/-- SHA izy, 0x93 (R320). -/
def execShaIzy (b : Byte) (s : State) : Result := execNoAccess (.izy b) 6 s

/-- SHA aby, 0x9F (R320). -/
def execShaAby (w : Word) (s : State) : Result := execNoAccess (.aby w) 5 s

/-- SHX aby, 0x9E (R321). -/
def execShx (w : Word) (s : State) : Result := execNoAccess (.aby w) 5 s

/-- SHY abx, 0x9C (R322). -/
def execShy (w : Word) (s : State) : Result := execNoAccess (.abx w) 5 s

/-- TAS aby, 0x9B (R323). -/
def execTas (w : Word) (s : State) : Result := execNoAccess (.aby w) 5 s

/-- LAS aby, 0xBB (R324). -/
def execLas (w : Word) (s : State) : Result := execRead (.aby w) 4 true opDiscard s

end Sys2Proof.Machine
end

