-- ==== Sys2Proof/Decode.lean ====
section
/-! DEFINITION. The decoder and the encoder, both written from spec/30_encoding.md and spec/opcode_table.json.
The decoder is total: the opcode byte alone selects the entry (R140, R141, R144) and no opcode value is illegal (R146);
it rejects by name only a byte sequence that ends before the instruction does. -/

namespace Sys2Proof

/-- One entry of the instruction table: the format (R140) and the instruction it makes of its operand. -/
inductive Entry where
  | f1 (i : Instr)             -- one byte, no operand
  | f2 (make : Byte → Instr)   -- two bytes, operand byte 1
  | f3 (make : Word → Instr)   -- three bytes, operand byte 2 high and byte 1 low

/-- How many bytes an entry's instruction has (R140). -/
def Entry.length : Entry → Nat
  | .f1 _ => 1
  | .f2 _ => 2
  | .f3 _ => 3

/-- The row of the opcode matrix of R144 whose high nibble is 0x0. -/
def opcodeRow0 : List Entry :=
  [.f1 .brk, .f2 .oraIzx, .f1 .jam02, .f2 .sloIzx,
   .f2 .nopZp04, .f2 .oraZp, .f2 .aslZp, .f2 .sloZp,
   .f1 .php, .f2 .oraImm, .f1 .aslAcc, .f2 .anc0B,
   .f3 .nopAbs0C, .f3 .oraAbs, .f3 .aslAbs, .f3 .sloAbs]

/-- The row of the opcode matrix of R144 whose high nibble is 0x1. -/
def opcodeRow1 : List Entry :=
  [.f2 .bpl, .f2 .oraIzy, .f1 .jam12, .f2 .sloIzy,
   .f2 .nopZpx14, .f2 .oraZpx, .f2 .aslZpx, .f2 .sloZpx,
   .f1 .clc, .f3 .oraAby, .f1 .nopImp1A, .f3 .sloAby,
   .f3 .nopAbx1C, .f3 .oraAbx, .f3 .aslAbx, .f3 .sloAbx]

/-- The row of the opcode matrix of R144 whose high nibble is 0x2. -/
def opcodeRow2 : List Entry :=
  [.f3 .jsr, .f2 .andIzx, .f1 .jam22, .f2 .rlaIzx,
   .f2 .bitZp, .f2 .andZp, .f2 .rolZp, .f2 .rlaZp,
   .f1 .plp, .f2 .andImm, .f1 .rolAcc, .f2 .anc2B,
   .f3 .bitAbs, .f3 .andAbs, .f3 .rolAbs, .f3 .rlaAbs]

/-- The row of the opcode matrix of R144 whose high nibble is 0x3. -/
def opcodeRow3 : List Entry :=
  [.f2 .bmi, .f2 .andIzy, .f1 .jam32, .f2 .rlaIzy,
   .f2 .nopZpx34, .f2 .andZpx, .f2 .rolZpx, .f2 .rlaZpx,
   .f1 .sec, .f3 .andAby, .f1 .nopImp3A, .f3 .rlaAby,
   .f3 .nopAbx3C, .f3 .andAbx, .f3 .rolAbx, .f3 .rlaAbx]

/-- The row of the opcode matrix of R144 whose high nibble is 0x4. -/
def opcodeRow4 : List Entry :=
  [.f1 .rti, .f2 .eorIzx, .f1 .jam42, .f2 .sreIzx,
   .f2 .nopZp44, .f2 .eorZp, .f2 .lsrZp, .f2 .sreZp,
   .f1 .pha, .f2 .eorImm, .f1 .lsrAcc, .f2 .alr,
   .f3 .jmpAbs, .f3 .eorAbs, .f3 .lsrAbs, .f3 .sreAbs]

/-- The row of the opcode matrix of R144 whose high nibble is 0x5. -/
def opcodeRow5 : List Entry :=
  [.f2 .bvc, .f2 .eorIzy, .f1 .jam52, .f2 .sreIzy,
   .f2 .nopZpx54, .f2 .eorZpx, .f2 .lsrZpx, .f2 .sreZpx,
   .f1 .cli, .f3 .eorAby, .f1 .nopImp5A, .f3 .sreAby,
   .f3 .nopAbx5C, .f3 .eorAbx, .f3 .lsrAbx, .f3 .sreAbx]

/-- The row of the opcode matrix of R144 whose high nibble is 0x6. -/
def opcodeRow6 : List Entry :=
  [.f1 .rts, .f2 .adcIzx, .f1 .jam62, .f2 .rraIzx,
   .f2 .nopZp64, .f2 .adcZp, .f2 .rorZp, .f2 .rraZp,
   .f1 .pla, .f2 .adcImm, .f1 .rorAcc, .f2 .arr,
   .f3 .jmpInd, .f3 .adcAbs, .f3 .rorAbs, .f3 .rraAbs]

/-- The row of the opcode matrix of R144 whose high nibble is 0x7. -/
def opcodeRow7 : List Entry :=
  [.f2 .bvs, .f2 .adcIzy, .f1 .jam72, .f2 .rraIzy,
   .f2 .nopZpx74, .f2 .adcZpx, .f2 .rorZpx, .f2 .rraZpx,
   .f1 .sei, .f3 .adcAby, .f1 .nopImp7A, .f3 .rraAby,
   .f3 .nopAbx7C, .f3 .adcAbx, .f3 .rorAbx, .f3 .rraAbx]

/-- The row of the opcode matrix of R144 whose high nibble is 0x8. -/
def opcodeRow8 : List Entry :=
  [.f2 .nopImm80, .f2 .staIzx, .f2 .nopImm82, .f2 .saxIzx,
   .f2 .styZp, .f2 .staZp, .f2 .stxZp, .f2 .saxZp,
   .f1 .dey, .f2 .nopImm89, .f1 .txa, .f2 .ane,
   .f3 .styAbs, .f3 .staAbs, .f3 .stxAbs, .f3 .saxAbs]

/-- The row of the opcode matrix of R144 whose high nibble is 0x9. -/
def opcodeRow9 : List Entry :=
  [.f2 .bcc, .f2 .staIzy, .f1 .jam92, .f2 .shaIzy,
   .f2 .styZpx, .f2 .staZpx, .f2 .stxZpy, .f2 .saxZpy,
   .f1 .tya, .f3 .staAby, .f1 .txs, .f3 .tas,
   .f3 .shy, .f3 .staAbx, .f3 .shx, .f3 .shaAby]

/-- The row of the opcode matrix of R144 whose high nibble is 0xA. -/
def opcodeRowA : List Entry :=
  [.f2 .ldyImm, .f2 .ldaIzx, .f2 .ldxImm, .f2 .laxIzx,
   .f2 .ldyZp, .f2 .ldaZp, .f2 .ldxZp, .f2 .laxZp,
   .f1 .tay, .f2 .ldaImm, .f1 .tax, .f2 .lxa,
   .f3 .ldyAbs, .f3 .ldaAbs, .f3 .ldxAbs, .f3 .laxAbs]

/-- The row of the opcode matrix of R144 whose high nibble is 0xB. -/
def opcodeRowB : List Entry :=
  [.f2 .bcs, .f2 .ldaIzy, .f1 .jamB2, .f2 .laxIzy,
   .f2 .ldyZpx, .f2 .ldaZpx, .f2 .ldxZpy, .f2 .laxZpy,
   .f1 .clv, .f3 .ldaAby, .f1 .tsx, .f3 .las,
   .f3 .ldyAbx, .f3 .ldaAbx, .f3 .ldxAby, .f3 .laxAby]

/-- The row of the opcode matrix of R144 whose high nibble is 0xC. -/
def opcodeRowC : List Entry :=
  [.f2 .cpyImm, .f2 .cmpIzx, .f2 .nopImmC2, .f2 .dcpIzx,
   .f2 .cpyZp, .f2 .cmpZp, .f2 .decZp, .f2 .dcpZp,
   .f1 .iny, .f2 .cmpImm, .f1 .dex, .f2 .axs,
   .f3 .cpyAbs, .f3 .cmpAbs, .f3 .decAbs, .f3 .dcpAbs]

/-- The row of the opcode matrix of R144 whose high nibble is 0xD. -/
def opcodeRowD : List Entry :=
  [.f2 .bne, .f2 .cmpIzy, .f1 .jamD2, .f2 .dcpIzy,
   .f2 .nopZpxD4, .f2 .cmpZpx, .f2 .decZpx, .f2 .dcpZpx,
   .f1 .cld, .f3 .cmpAby, .f1 .nopImpDA, .f3 .dcpAby,
   .f3 .nopAbxDC, .f3 .cmpAbx, .f3 .decAbx, .f3 .dcpAbx]

/-- The row of the opcode matrix of R144 whose high nibble is 0xE. -/
def opcodeRowE : List Entry :=
  [.f2 .cpxImm, .f2 .sbcIzx, .f2 .nopImmE2, .f2 .iscIzx,
   .f2 .cpxZp, .f2 .sbcZp, .f2 .incZp, .f2 .iscZp,
   .f1 .inx, .f2 .sbcImm, .f1 .nop, .f2 .sbcImmEB,
   .f3 .cpxAbs, .f3 .sbcAbs, .f3 .incAbs, .f3 .iscAbs]

/-- The row of the opcode matrix of R144 whose high nibble is 0xF. -/
def opcodeRowF : List Entry :=
  [.f2 .beq, .f2 .sbcIzy, .f1 .jamF2, .f2 .iscIzy,
   .f2 .nopZpxF4, .f2 .sbcZpx, .f2 .incZpx, .f2 .iscZpx,
   .f1 .sed, .f3 .sbcAby, .f1 .nopImpFA, .f3 .iscAby,
   .f3 .nopAbxFC, .f3 .sbcAbx, .f3 .incAbx, .f3 .iscAbx]

/-- The instruction table of R144: row = high nibble of the opcode, column = low nibble. -/
def opcodeMatrix : List (List Entry) :=
  [opcodeRow0, opcodeRow1, opcodeRow2, opcodeRow3, opcodeRow4, opcodeRow5, opcodeRow6, opcodeRow7,
   opcodeRow8, opcodeRow9, opcodeRowA, opcodeRowB, opcodeRowC, opcodeRowD, opcodeRowE, opcodeRowF]

/-- The entry of an opcode byte (R144). All 16 rows have 16 entries (`Laws.opcodeMatrix_full`), so the defaults of the
two lookups are never taken. -/
def opcodeEntry (op : Byte) : Entry :=
  (opcodeMatrix.getD (op.toNat / 16) []).getD (op.toNat % 16) (.f1 .nop)

/-- The length of an instruction is a function of its opcode byte alone (R141). -/
def instrLength (op : Byte) : Nat := (opcodeEntry op).length

/-- Why a byte sequence is not an instruction. -/
inductive DecodeError where
  | noBytes                    -- the sequence is empty
  | truncated (opcode : Byte)  -- the sequence ends inside the instruction that this opcode begins
deriving DecidableEq, Repr

/-- The decoder: the instruction at the head of a byte sequence and the bytes after it (R140, R141, R148). -/
def decode : List Byte → Except DecodeError (Instr × List Byte)
  | [] => .error .noBytes
  | op :: rest =>
    match opcodeEntry op, rest with
    | .f1 i, r => .ok (i, r)
    | .f2 make, b1 :: r => .ok (make b1, r)
    | .f3 make, b1 :: b2 :: r => .ok (make (wordOf b2 b1), r)
    | _, _ => .error (.truncated op)

/-- The instruction the decoder reads from an instruction's bits, numbered as spec/opcode_table.json numbers them: bits
7:0 are the opcode, bits 15:8 byte 1, bits 23:16 byte 2. Bits above `nbits` are 0 (operand bytes of zeros). -/
def decodeTableWord (nbits w : Nat) : Option Instr :=
  let v := w % 2 ^ nbits
  match decode [BitVec.ofNat 8 v, BitVec.ofNat 8 (v / 256), BitVec.ofNat 8 (v / 65536)] with
  | .ok (i, _) => some i
  | .error _ => none

/-- One row of spec/opcode_table.json: opcode value, mnemonic, addressing mode with its operand, base cycle count. -/
structure Row where
  opcode   : Byte
  mnemonic : Mnemonic
  operand  : Operand
  cycles   : Nat
deriving DecidableEq, Repr

/-- The row of an instruction (R144, R151 and the encoding tables of files 41 to 46). -/
def Instr.row : Instr → Row
  | .brk => ⟨0x00, .brk, .imp, 7⟩
  | .oraIzx b => ⟨0x01, .ora, .izx b, 6⟩
  | .jam02 => ⟨0x02, .jam, .imp, 2⟩
  | .sloIzx b => ⟨0x03, .slo, .izx b, 8⟩
  | .nopZp04 b => ⟨0x04, .nop, .zp b, 3⟩
  | .oraZp b => ⟨0x05, .ora, .zp b, 3⟩
  | .aslZp b => ⟨0x06, .asl, .zp b, 5⟩
  | .sloZp b => ⟨0x07, .slo, .zp b, 5⟩
  | .php => ⟨0x08, .php, .imp, 3⟩
  | .oraImm b => ⟨0x09, .ora, .imm b, 2⟩
  | .aslAcc => ⟨0x0A, .asl, .acc, 2⟩
  | .anc0B b => ⟨0x0B, .anc, .imm b, 2⟩
  | .nopAbs0C w => ⟨0x0C, .nop, .abs w, 4⟩
  | .oraAbs w => ⟨0x0D, .ora, .abs w, 4⟩
  | .aslAbs w => ⟨0x0E, .asl, .abs w, 6⟩
  | .sloAbs w => ⟨0x0F, .slo, .abs w, 6⟩
  | .bpl b => ⟨0x10, .bpl, .rel b, 2⟩
  | .oraIzy b => ⟨0x11, .ora, .izy b, 5⟩
  | .jam12 => ⟨0x12, .jam, .imp, 2⟩
  | .sloIzy b => ⟨0x13, .slo, .izy b, 8⟩
  | .nopZpx14 b => ⟨0x14, .nop, .zpx b, 4⟩
  | .oraZpx b => ⟨0x15, .ora, .zpx b, 4⟩
  | .aslZpx b => ⟨0x16, .asl, .zpx b, 6⟩
  | .sloZpx b => ⟨0x17, .slo, .zpx b, 6⟩
  | .clc => ⟨0x18, .clc, .imp, 2⟩
  | .oraAby w => ⟨0x19, .ora, .aby w, 4⟩
  | .nopImp1A => ⟨0x1A, .nop, .imp, 2⟩
  | .sloAby w => ⟨0x1B, .slo, .aby w, 7⟩
  | .nopAbx1C w => ⟨0x1C, .nop, .abx w, 4⟩
  | .oraAbx w => ⟨0x1D, .ora, .abx w, 4⟩
  | .aslAbx w => ⟨0x1E, .asl, .abx w, 7⟩
  | .sloAbx w => ⟨0x1F, .slo, .abx w, 7⟩
  | .jsr w => ⟨0x20, .jsr, .abs w, 6⟩
  | .andIzx b => ⟨0x21, .and, .izx b, 6⟩
  | .jam22 => ⟨0x22, .jam, .imp, 2⟩
  | .rlaIzx b => ⟨0x23, .rla, .izx b, 8⟩
  | .bitZp b => ⟨0x24, .bit, .zp b, 3⟩
  | .andZp b => ⟨0x25, .and, .zp b, 3⟩
  | .rolZp b => ⟨0x26, .rol, .zp b, 5⟩
  | .rlaZp b => ⟨0x27, .rla, .zp b, 5⟩
  | .plp => ⟨0x28, .plp, .imp, 4⟩
  | .andImm b => ⟨0x29, .and, .imm b, 2⟩
  | .rolAcc => ⟨0x2A, .rol, .acc, 2⟩
  | .anc2B b => ⟨0x2B, .anc, .imm b, 2⟩
  | .bitAbs w => ⟨0x2C, .bit, .abs w, 4⟩
  | .andAbs w => ⟨0x2D, .and, .abs w, 4⟩
  | .rolAbs w => ⟨0x2E, .rol, .abs w, 6⟩
  | .rlaAbs w => ⟨0x2F, .rla, .abs w, 6⟩
  | .bmi b => ⟨0x30, .bmi, .rel b, 2⟩
  | .andIzy b => ⟨0x31, .and, .izy b, 5⟩
  | .jam32 => ⟨0x32, .jam, .imp, 2⟩
  | .rlaIzy b => ⟨0x33, .rla, .izy b, 8⟩
  | .nopZpx34 b => ⟨0x34, .nop, .zpx b, 4⟩
  | .andZpx b => ⟨0x35, .and, .zpx b, 4⟩
  | .rolZpx b => ⟨0x36, .rol, .zpx b, 6⟩
  | .rlaZpx b => ⟨0x37, .rla, .zpx b, 6⟩
  | .sec => ⟨0x38, .sec, .imp, 2⟩
  | .andAby w => ⟨0x39, .and, .aby w, 4⟩
  | .nopImp3A => ⟨0x3A, .nop, .imp, 2⟩
  | .rlaAby w => ⟨0x3B, .rla, .aby w, 7⟩
  | .nopAbx3C w => ⟨0x3C, .nop, .abx w, 4⟩
  | .andAbx w => ⟨0x3D, .and, .abx w, 4⟩
  | .rolAbx w => ⟨0x3E, .rol, .abx w, 7⟩
  | .rlaAbx w => ⟨0x3F, .rla, .abx w, 7⟩
  | .rti => ⟨0x40, .rti, .imp, 6⟩
  | .eorIzx b => ⟨0x41, .eor, .izx b, 6⟩
  | .jam42 => ⟨0x42, .jam, .imp, 2⟩
  | .sreIzx b => ⟨0x43, .sre, .izx b, 8⟩
  | .nopZp44 b => ⟨0x44, .nop, .zp b, 3⟩
  | .eorZp b => ⟨0x45, .eor, .zp b, 3⟩
  | .lsrZp b => ⟨0x46, .lsr, .zp b, 5⟩
  | .sreZp b => ⟨0x47, .sre, .zp b, 5⟩
  | .pha => ⟨0x48, .pha, .imp, 3⟩
  | .eorImm b => ⟨0x49, .eor, .imm b, 2⟩
  | .lsrAcc => ⟨0x4A, .lsr, .acc, 2⟩
  | .alr b => ⟨0x4B, .alr, .imm b, 2⟩
  | .jmpAbs w => ⟨0x4C, .jmp, .abs w, 3⟩
  | .eorAbs w => ⟨0x4D, .eor, .abs w, 4⟩
  | .lsrAbs w => ⟨0x4E, .lsr, .abs w, 6⟩
  | .sreAbs w => ⟨0x4F, .sre, .abs w, 6⟩
  | .bvc b => ⟨0x50, .bvc, .rel b, 2⟩
  | .eorIzy b => ⟨0x51, .eor, .izy b, 5⟩
  | .jam52 => ⟨0x52, .jam, .imp, 2⟩
  | .sreIzy b => ⟨0x53, .sre, .izy b, 8⟩
  | .nopZpx54 b => ⟨0x54, .nop, .zpx b, 4⟩
  | .eorZpx b => ⟨0x55, .eor, .zpx b, 4⟩
  | .lsrZpx b => ⟨0x56, .lsr, .zpx b, 6⟩
  | .sreZpx b => ⟨0x57, .sre, .zpx b, 6⟩
  | .cli => ⟨0x58, .cli, .imp, 2⟩
  | .eorAby w => ⟨0x59, .eor, .aby w, 4⟩
  | .nopImp5A => ⟨0x5A, .nop, .imp, 2⟩
  | .sreAby w => ⟨0x5B, .sre, .aby w, 7⟩
  | .nopAbx5C w => ⟨0x5C, .nop, .abx w, 4⟩
  | .eorAbx w => ⟨0x5D, .eor, .abx w, 4⟩
  | .lsrAbx w => ⟨0x5E, .lsr, .abx w, 7⟩
  | .sreAbx w => ⟨0x5F, .sre, .abx w, 7⟩
  | .rts => ⟨0x60, .rts, .imp, 6⟩
  | .adcIzx b => ⟨0x61, .adc, .izx b, 6⟩
  | .jam62 => ⟨0x62, .jam, .imp, 2⟩
  | .rraIzx b => ⟨0x63, .rra, .izx b, 8⟩
  | .nopZp64 b => ⟨0x64, .nop, .zp b, 3⟩
  | .adcZp b => ⟨0x65, .adc, .zp b, 3⟩
  | .rorZp b => ⟨0x66, .ror, .zp b, 5⟩
  | .rraZp b => ⟨0x67, .rra, .zp b, 5⟩
  | .pla => ⟨0x68, .pla, .imp, 4⟩
  | .adcImm b => ⟨0x69, .adc, .imm b, 2⟩
  | .rorAcc => ⟨0x6A, .ror, .acc, 2⟩
  | .arr b => ⟨0x6B, .arr, .imm b, 2⟩
  | .jmpInd w => ⟨0x6C, .jmp, .ind w, 5⟩
  | .adcAbs w => ⟨0x6D, .adc, .abs w, 4⟩
  | .rorAbs w => ⟨0x6E, .ror, .abs w, 6⟩
  | .rraAbs w => ⟨0x6F, .rra, .abs w, 6⟩
  | .bvs b => ⟨0x70, .bvs, .rel b, 2⟩
  | .adcIzy b => ⟨0x71, .adc, .izy b, 5⟩
  | .jam72 => ⟨0x72, .jam, .imp, 2⟩
  | .rraIzy b => ⟨0x73, .rra, .izy b, 8⟩
  | .nopZpx74 b => ⟨0x74, .nop, .zpx b, 4⟩
  | .adcZpx b => ⟨0x75, .adc, .zpx b, 4⟩
  | .rorZpx b => ⟨0x76, .ror, .zpx b, 6⟩
  | .rraZpx b => ⟨0x77, .rra, .zpx b, 6⟩
  | .sei => ⟨0x78, .sei, .imp, 2⟩
  | .adcAby w => ⟨0x79, .adc, .aby w, 4⟩
  | .nopImp7A => ⟨0x7A, .nop, .imp, 2⟩
  | .rraAby w => ⟨0x7B, .rra, .aby w, 7⟩
  | .nopAbx7C w => ⟨0x7C, .nop, .abx w, 4⟩
  | .adcAbx w => ⟨0x7D, .adc, .abx w, 4⟩
  | .rorAbx w => ⟨0x7E, .ror, .abx w, 7⟩
  | .rraAbx w => ⟨0x7F, .rra, .abx w, 7⟩
  | .nopImm80 b => ⟨0x80, .nop, .imm b, 2⟩
  | .staIzx b => ⟨0x81, .sta, .izx b, 6⟩
  | .nopImm82 b => ⟨0x82, .nop, .imm b, 2⟩
  | .saxIzx b => ⟨0x83, .sax, .izx b, 6⟩
  | .styZp b => ⟨0x84, .sty, .zp b, 3⟩
  | .staZp b => ⟨0x85, .sta, .zp b, 3⟩
  | .stxZp b => ⟨0x86, .stx, .zp b, 3⟩
  | .saxZp b => ⟨0x87, .sax, .zp b, 3⟩
  | .dey => ⟨0x88, .dey, .imp, 2⟩
  | .nopImm89 b => ⟨0x89, .nop, .imm b, 2⟩
  | .txa => ⟨0x8A, .txa, .imp, 2⟩
  | .ane b => ⟨0x8B, .ane, .imm b, 2⟩
  | .styAbs w => ⟨0x8C, .sty, .abs w, 4⟩
  | .staAbs w => ⟨0x8D, .sta, .abs w, 4⟩
  | .stxAbs w => ⟨0x8E, .stx, .abs w, 4⟩
  | .saxAbs w => ⟨0x8F, .sax, .abs w, 4⟩
  | .bcc b => ⟨0x90, .bcc, .rel b, 2⟩
  | .staIzy b => ⟨0x91, .sta, .izy b, 6⟩
  | .jam92 => ⟨0x92, .jam, .imp, 2⟩
  | .shaIzy b => ⟨0x93, .sha, .izy b, 6⟩
  | .styZpx b => ⟨0x94, .sty, .zpx b, 4⟩
  | .staZpx b => ⟨0x95, .sta, .zpx b, 4⟩
  | .stxZpy b => ⟨0x96, .stx, .zpy b, 4⟩
  | .saxZpy b => ⟨0x97, .sax, .zpy b, 4⟩
  | .tya => ⟨0x98, .tya, .imp, 2⟩
  | .staAby w => ⟨0x99, .sta, .aby w, 5⟩
  | .txs => ⟨0x9A, .txs, .imp, 2⟩
  | .tas w => ⟨0x9B, .tas, .aby w, 5⟩
  | .shy w => ⟨0x9C, .shy, .abx w, 5⟩
  | .staAbx w => ⟨0x9D, .sta, .abx w, 5⟩
  | .shx w => ⟨0x9E, .shx, .aby w, 5⟩
  | .shaAby w => ⟨0x9F, .sha, .aby w, 5⟩
  | .ldyImm b => ⟨0xA0, .ldy, .imm b, 2⟩
  | .ldaIzx b => ⟨0xA1, .lda, .izx b, 6⟩
  | .ldxImm b => ⟨0xA2, .ldx, .imm b, 2⟩
  | .laxIzx b => ⟨0xA3, .lax, .izx b, 6⟩
  | .ldyZp b => ⟨0xA4, .ldy, .zp b, 3⟩
  | .ldaZp b => ⟨0xA5, .lda, .zp b, 3⟩
  | .ldxZp b => ⟨0xA6, .ldx, .zp b, 3⟩
  | .laxZp b => ⟨0xA7, .lax, .zp b, 3⟩
  | .tay => ⟨0xA8, .tay, .imp, 2⟩
  | .ldaImm b => ⟨0xA9, .lda, .imm b, 2⟩
  | .tax => ⟨0xAA, .tax, .imp, 2⟩
  | .lxa b => ⟨0xAB, .lxa, .imm b, 2⟩
  | .ldyAbs w => ⟨0xAC, .ldy, .abs w, 4⟩
  | .ldaAbs w => ⟨0xAD, .lda, .abs w, 4⟩
  | .ldxAbs w => ⟨0xAE, .ldx, .abs w, 4⟩
  | .laxAbs w => ⟨0xAF, .lax, .abs w, 4⟩
  | .bcs b => ⟨0xB0, .bcs, .rel b, 2⟩
  | .ldaIzy b => ⟨0xB1, .lda, .izy b, 5⟩
  | .jamB2 => ⟨0xB2, .jam, .imp, 2⟩
  | .laxIzy b => ⟨0xB3, .lax, .izy b, 5⟩
  | .ldyZpx b => ⟨0xB4, .ldy, .zpx b, 4⟩
  | .ldaZpx b => ⟨0xB5, .lda, .zpx b, 4⟩
  | .ldxZpy b => ⟨0xB6, .ldx, .zpy b, 4⟩
  | .laxZpy b => ⟨0xB7, .lax, .zpy b, 4⟩
  | .clv => ⟨0xB8, .clv, .imp, 2⟩
  | .ldaAby w => ⟨0xB9, .lda, .aby w, 4⟩
  | .tsx => ⟨0xBA, .tsx, .imp, 2⟩
  | .las w => ⟨0xBB, .las, .aby w, 4⟩
  | .ldyAbx w => ⟨0xBC, .ldy, .abx w, 4⟩
  | .ldaAbx w => ⟨0xBD, .lda, .abx w, 4⟩
  | .ldxAby w => ⟨0xBE, .ldx, .aby w, 4⟩
  | .laxAby w => ⟨0xBF, .lax, .aby w, 4⟩
  | .cpyImm b => ⟨0xC0, .cpy, .imm b, 2⟩
  | .cmpIzx b => ⟨0xC1, .cmp, .izx b, 6⟩
  | .nopImmC2 b => ⟨0xC2, .nop, .imm b, 2⟩
  | .dcpIzx b => ⟨0xC3, .dcp, .izx b, 8⟩
  | .cpyZp b => ⟨0xC4, .cpy, .zp b, 3⟩
  | .cmpZp b => ⟨0xC5, .cmp, .zp b, 3⟩
  | .decZp b => ⟨0xC6, .dec, .zp b, 5⟩
  | .dcpZp b => ⟨0xC7, .dcp, .zp b, 5⟩
  | .iny => ⟨0xC8, .iny, .imp, 2⟩
  | .cmpImm b => ⟨0xC9, .cmp, .imm b, 2⟩
  | .dex => ⟨0xCA, .dex, .imp, 2⟩
  | .axs b => ⟨0xCB, .axs, .imm b, 2⟩
  | .cpyAbs w => ⟨0xCC, .cpy, .abs w, 4⟩
  | .cmpAbs w => ⟨0xCD, .cmp, .abs w, 4⟩
  | .decAbs w => ⟨0xCE, .dec, .abs w, 6⟩
  | .dcpAbs w => ⟨0xCF, .dcp, .abs w, 6⟩
  | .bne b => ⟨0xD0, .bne, .rel b, 2⟩
  | .cmpIzy b => ⟨0xD1, .cmp, .izy b, 5⟩
  | .jamD2 => ⟨0xD2, .jam, .imp, 2⟩
  | .dcpIzy b => ⟨0xD3, .dcp, .izy b, 8⟩
  | .nopZpxD4 b => ⟨0xD4, .nop, .zpx b, 4⟩
  | .cmpZpx b => ⟨0xD5, .cmp, .zpx b, 4⟩
  | .decZpx b => ⟨0xD6, .dec, .zpx b, 6⟩
  | .dcpZpx b => ⟨0xD7, .dcp, .zpx b, 6⟩
  | .cld => ⟨0xD8, .cld, .imp, 2⟩
  | .cmpAby w => ⟨0xD9, .cmp, .aby w, 4⟩
  | .nopImpDA => ⟨0xDA, .nop, .imp, 2⟩
  | .dcpAby w => ⟨0xDB, .dcp, .aby w, 7⟩
  | .nopAbxDC w => ⟨0xDC, .nop, .abx w, 4⟩
  | .cmpAbx w => ⟨0xDD, .cmp, .abx w, 4⟩
  | .decAbx w => ⟨0xDE, .dec, .abx w, 7⟩
  | .dcpAbx w => ⟨0xDF, .dcp, .abx w, 7⟩
  | .cpxImm b => ⟨0xE0, .cpx, .imm b, 2⟩
  | .sbcIzx b => ⟨0xE1, .sbc, .izx b, 6⟩
  | .nopImmE2 b => ⟨0xE2, .nop, .imm b, 2⟩
  | .iscIzx b => ⟨0xE3, .isc, .izx b, 8⟩
  | .cpxZp b => ⟨0xE4, .cpx, .zp b, 3⟩
  | .sbcZp b => ⟨0xE5, .sbc, .zp b, 3⟩
  | .incZp b => ⟨0xE6, .inc, .zp b, 5⟩
  | .iscZp b => ⟨0xE7, .isc, .zp b, 5⟩
  | .inx => ⟨0xE8, .inx, .imp, 2⟩
  | .sbcImm b => ⟨0xE9, .sbc, .imm b, 2⟩
  | .nop => ⟨0xEA, .nop, .imp, 2⟩
  | .sbcImmEB b => ⟨0xEB, .sbc, .imm b, 2⟩
  | .cpxAbs w => ⟨0xEC, .cpx, .abs w, 4⟩
  | .sbcAbs w => ⟨0xED, .sbc, .abs w, 4⟩
  | .incAbs w => ⟨0xEE, .inc, .abs w, 6⟩
  | .iscAbs w => ⟨0xEF, .isc, .abs w, 6⟩
  | .beq b => ⟨0xF0, .beq, .rel b, 2⟩
  | .sbcIzy b => ⟨0xF1, .sbc, .izy b, 5⟩
  | .jamF2 => ⟨0xF2, .jam, .imp, 2⟩
  | .iscIzy b => ⟨0xF3, .isc, .izy b, 8⟩
  | .nopZpxF4 b => ⟨0xF4, .nop, .zpx b, 4⟩
  | .sbcZpx b => ⟨0xF5, .sbc, .zpx b, 4⟩
  | .incZpx b => ⟨0xF6, .inc, .zpx b, 6⟩
  | .iscZpx b => ⟨0xF7, .isc, .zpx b, 6⟩
  | .sed => ⟨0xF8, .sed, .imp, 2⟩
  | .sbcAby w => ⟨0xF9, .sbc, .aby w, 4⟩
  | .nopImpFA => ⟨0xFA, .nop, .imp, 2⟩
  | .iscAby w => ⟨0xFB, .isc, .aby w, 7⟩
  | .nopAbxFC w => ⟨0xFC, .nop, .abx w, 4⟩
  | .sbcAbx w => ⟨0xFD, .sbc, .abx w, 4⟩
  | .incAbx w => ⟨0xFE, .inc, .abx w, 7⟩
  | .iscAbx w => ⟨0xFF, .isc, .abx w, 7⟩

/-- The opcode byte of an instruction (R144). -/
def Instr.opcode (i : Instr) : Byte := i.row.opcode

/-- The mnemonic of an instruction (R144). -/
def Instr.mnemonic (i : Instr) : Mnemonic := i.row.mnemonic

/-- The addressing mode of an instruction, with its operand bytes (R142). -/
def Instr.operand (i : Instr) : Operand := i.row.operand

/-- The base cycle count of an instruction (R144, R171). -/
def Instr.baseCycles (i : Instr) : Nat := i.row.cycles

/-- The operand bytes of a mode in fetch order, low byte first (R140, R92). -/
def Operand.bytes : Operand → List Byte
  | .imp => []
  | .acc => []
  | .imm b => [b]
  | .zp b => [b]
  | .zpx b => [b]
  | .zpy b => [b]
  | .izx b => [b]
  | .izy b => [b]
  | .rel b => [b]
  | .abs w => [lo w, hi w]
  | .ind w => [lo w, hi w]
  | .abx w => [lo w, hi w]
  | .aby w => [lo w, hi w]

/-- The encoder: the bytes of an instruction in fetch order (R140, R144). -/
def encode (i : Instr) : List Byte := i.opcode :: i.operand.bytes

end Sys2Proof
end

