-- ==== Sys2Proof/Machine/Raster.lean ====
section
/-! DEFINITION. The PPU raster engine (spec/48_ppu_raster.md): what one PPU tick does. -/

namespace Sys2Proof.Machine

/-- Do `f` if the condition holds, else nothing: a step of R380. -/
def doIf (c : Bool) (f : State → State) (s : State) : State := if c then f s else s

/-! The position (R382, R432). -/

/-- `OddFrameSkip()` (R382). -/
def oddFrameSkip (p : Ppu) : Ppu :=
  if p.scanline = 0 ∧ p.cycle = 0 ∧ p.oddFrame = true ∧ p.rendering = true then { p with cycle := 1 } else p

/-- `Advance()` (R432). -/
def advance (p : Ppu) : Ppu :=
  if p.cycle + 1 ≤ 340 then { p with cycle := p.cycle + 1 }
  else if p.scanline + 1 ≤ 260 then { p with cycle := 0, scanline := p.scanline + 1 }
  else { p with cycle := 0, scanline := -1, frameComplete := true, oddFrame := !p.oddFrame }

/-- Empty the two shifters of a sprite slot (R386). -/
def SpriteSlot.clearShifters (q : SpriteSlot) : SpriteSlot := { q with lo := 0, hi := 0 }

/-- `PreRenderClear()` (R386). -/
def preRenderClear (p : Ppu) : Ppu :=
  { p with
    vblank := false, overflow := false, spr0Hit := false, slots := p.slots.map SpriteSlot.clearShifters,
    spriteCount := 0, spr0Possible := false, spr0Rendered := false }

/-- `VblankSet()` (R430). -/
def vblankSet (p : Ppu) : Ppu := { p with vblank := true, nmiRequest := p.nmiRequest || p.nmiEnabled }

/-! The background pipeline (R388 to R400). -/

/-- `ShiftBackground()` (R388). -/
def shiftBackground (p : Ppu) : Ppu :=
  { p with bgPatLo := p.bgPatLo <<< 1, bgPatHi := p.bgPatHi <<< 1, bgAttLo := p.bgAttLo <<< 1, bgAttHi := p.bgAttHi <<< 1 }

/-- A shifter whose low byte is replaced (R391). -/
def loadLow (r : BitVec 16) (b : Byte) : BitVec 16 := (r &&& 0xFF00) ||| b.setWidth 16

/-- A palette bit expanded to a byte (R391, R43). -/
def expandBit (b : Bool) : Byte := if b then 0xFF else 0x00

/-- `LoadShifters()` (R391). -/
def loadShifters (p : Ppu) : Ppu :=
  { p with
    bgPatLo := loadLow p.bgPatLo p.nextLo
    bgPatHi := loadLow p.bgPatHi p.nextHi
    bgAttLo := loadLow p.bgAttLo (expandBit (p.nextAttr.getLsbD 0))
    bgAttHi := loadLow p.bgAttHi (expandBit (p.nextAttr.getLsbD 1)) }

/-- `NtAddr()` (R391). -/
def ntAddr (v : BitVec 15) : Word := 0x2000 ||| (v.setWidth 16 &&& 0x0FFF)

/-- The address of the attribute byte (R392). -/
def attrAddr (v : BitVec 15) : Word :=
  0x23C0 ||| ((ntY v).setWidth 16 <<< 11) ||| ((ntX v).setWidth 16 <<< 10)
    ||| (((coarseY v).setWidth 16 >>> 2) <<< 3) ||| ((coarseX v).setWidth 16 >>> 2)

/-- The 2 by 2 quadrant selection in an attribute byte (R392). -/
def attrQuadrant (v : BitVec 15) (a : Byte) : BitVec 2 :=
  let a := if (coarseY v).getLsbD 1 then a >>> 4 else a
  let a := if (coarseX v).getLsbD 1 then a >>> 2 else a
  a.extractLsb' 0 2

/-- The address of the low pattern byte (R393); the high one is 8 above (R394). -/
def patternAddr (p : Ppu) : Word :=
  ((BitVec.ofBool p.bgTable).setWidth 16 <<< 12) + (p.nextId.setWidth 16 <<< 4) + (fineY p.v).setWidth 16

/-- `next_id <- PpuRead(NtAddr())` (R391, R399). -/
def fetchTileId (s : State) : State :=
  let r := ppuRead (ntAddr s.ppu.v) s
  r.2.mapPpu fun p => { p with nextId := r.1 }

/-- Step 2 (R392). -/
def fetchAttr (s : State) : State :=
  let r := ppuRead (attrAddr s.ppu.v) s
  r.2.mapPpu fun p => { p with nextAttr := attrQuadrant s.ppu.v r.1 }

/-- Step 4 (R393). -/
def fetchLow (s : State) : State :=
  let r := ppuRead (patternAddr s.ppu) s
  r.2.mapPpu fun p => { p with nextLo := r.1 }

/-- Step 6 (R394). -/
def fetchHigh (s : State) : State :=
  let r := ppuRead (patternAddr s.ppu + 8) s
  r.2.mapPpu fun p => { p with nextHi := r.1 }

/-- `IncrementX()` (R395). -/
def incrementX (p : Ppu) : Ppu :=
  if p.rendering then
    if coarseX p.v = 31 then { p with v := withX p.v (ntX p.v ^^^ 1) 0 }
    else { p with v := withX p.v (ntX p.v) (coarseX p.v + 1) }
  else p

/-- `IncrementY()` (R397), with the 30-row and the 32-row wrap. -/
def incrementY (p : Ppu) : Ppu :=
  if p.rendering then
    if (fineY p.v).toNat < 7 then { p with v := withY p.v (fineY p.v + 1) (ntY p.v) (coarseY p.v) }
    else if coarseY p.v = 29 then { p with v := withY p.v 0 (ntY p.v ^^^ 1) 0 }
    else if coarseY p.v = 31 then { p with v := withY p.v 0 (ntY p.v) 0 }
    else { p with v := withY p.v 0 (ntY p.v) (coarseY p.v + 1) }
  else p

/-- `TransferX()` (R398). -/
def transferX (p : Ppu) : Ppu := if p.rendering then { p with v := withX p.v (ntX p.t) (coarseX p.t) } else p

/-- `TransferY()` (R400). -/
def transferY (p : Ppu) : Ppu :=
  if p.rendering then { p with v := withY p.v (fineY p.t) (ntY p.t) (coarseY p.t) } else p

/-- `FetchStep(k)` (R390 to R396): steps 1, 3 and 5 do nothing. -/
def fetchStep (k : Nat) (s : State) : State :=
  match k with
  | 0 => fetchTileId (s.mapPpu loadShifters)
  | 2 => fetchAttr s
  | 4 => fetchLow s
  | 6 => fetchHigh s
  | 7 => s.mapPpu incrementX
  | _ => s

/-! The foreground pipeline (R404 to R413). -/

/-- One cycle of an active slot (R404): count down, then shift. -/
def SpriteSlot.tick (q : SpriteSlot) : SpriteSlot :=
  if q.x ≠ 0 then { q with x := q.x - 1 } else { q with lo := q.lo <<< 1, hi := q.hi <<< 1 }

/-- Change the first `n` slots. -/
def mapFirst (f : SpriteSlot → SpriteSlot) : Nat → List SpriteSlot → List SpriteSlot
  | 0, l => l
  | _, [] => []
  | n + 1, q :: rest => f q :: mapFirst f n rest

/-- `UpdateSprites()` (R404); the caller restricts it to cycles [2,258). -/
def updateSprites (p : Ppu) : Ppu := { p with slots := mapFirst SpriteSlot.tick p.spriteCount p.slots }

/-- The height of a sprite (R408). -/
def Ppu.spriteHeight (p : Ppu) : Nat := if p.tallSprites then 16 else 8

/-- Is sprite `n` in range on this scanline (R408). -/
def Ppu.inRange (p : Ppu) (n : Nat) : Bool :=
  let d := p.scanline - (p.oamByte (4 * n)).toNat
  decide (0 ≤ d) && decide (d < p.spriteHeight)

/-- The slot that sprite `n` fills: its four OAM bytes, empty shifters (R408). -/
def Ppu.slotOf (p : Ppu) (n : Nat) : SpriteSlot :=
  { y := p.oamByte (4 * n), tile := p.oamByte (4 * n + 1), attr := p.oamByte (4 * n + 2), x := p.oamByte (4 * n + 3),
    lo := 0, hi := 0 }

/-- What the scan of OAM has found so far. -/
structure Scan where
  found    : List SpriteSlot
  zero     : Bool
  overflow : Bool
deriving DecidableEq, Repr

/-- The scan of OAM over a list of sprite numbers (R408): at most 8 are taken, the ninth sets the flag and stops it. -/
def scanSprites (p : Ppu) : List Nat → Scan → Scan
  | [], r => r
  | n :: rest, r =>
    if p.inRange n then
      if r.found.length < 8 then
        scanSprites p rest { r with found := r.found ++ [p.slotOf n], zero := r.zero || decide (n = 0) }
      else { r with overflow := true }
    else scanSprites p rest r

/-- `EvaluateSprites()` (R408, R410). -/
def evaluateSprites (p : Ppu) : Ppu :=
  let r := scanSprites p (List.range 64) { found := [], zero := false, overflow := false }
  { p with
    slots := r.found ++ List.replicate (8 - r.found.length) SpriteSlot.blank
    spriteCount := r.found.length
    spr0Possible := r.zero
    overflow := p.overflow || r.overflow }

/-- The address of the low plane of a sprite's row (R412). The row is below the height at evaluation (R408); if the program
has since made the sprites 8 by 8 it can be 8 to 15. Without vertical flip the rule's `line` is then the row all the same;
with it `7 - row` is negative and the rule gives no address: free value (log entry 12). -/
def spriteAddr (p : Ppu) (q : SpriteSlot) : Word :=
  let row := p.scanline - q.y.toNat
  let vflip := q.attr.getLsbD 7
  if p.tallSprites then
    let top := q.tile &&& 0xFE
    let upper := decide (row < 8)
    let tile := if upper = vflip then top + 1 else top
    let r7 := (BitVec.ofInt 16 row) &&& 7
    let line := if vflip then 7 - r7 else r7
    ((BitVec.ofBool (q.tile.getLsbD 0)).setWidth 16 <<< 12) ||| (tile.setWidth 16 <<< 4) ||| line
  else
    let line := if vflip then 7 - row else row
    if 0 ≤ line then
      ((BitVec.ofBool p.sprTable).setWidth 16 <<< 12) ||| (q.tile.setWidth 16 <<< 4) ||| BitVec.ofInt 16 line
    else Config.spriteAddrOutside p.ctrl q.tile q.attr row

/-- Both planes of a slot, reversed if it is flipped horizontally (R412, R413). -/
def SpriteSlot.load (q : SpriteSlot) (lo hi : Byte) : SpriteSlot :=
  if q.attr.getLsbD 6 then { q with lo := flipByte lo, hi := flipByte hi } else { q with lo := lo, hi := hi }

/-- The fetches of the first `n` slots of a list, slot order, low plane first (R412). -/
def fetchSlots : Nat → List SpriteSlot → State → List SpriteSlot × State
  | 0, l, s => (l, s)
  | _, [], s => ([], s)
  | n + 1, q :: rest, s =>
    let l := ppuRead (spriteAddr s.ppu q) s
    let h := ppuRead (spriteAddr s.ppu q + 8) l.2
    let r := fetchSlots n rest h.2
    (q.load l.1 h.1 :: r.1, r.2)

/-- `FetchSprites()` (R412). -/
def fetchSprites (s : State) : State :=
  let r := fetchSlots s.ppu.spriteCount s.ppu.slots s
  r.2.mapPpu fun p => { p with slots := r.1 }

/-! The compositor (R416 to R426). -/

/-- A pixel: 2-bit index and palette number 0 to 7. -/
structure Pixel where
  px  : BitVec 2
  pal : BitVec 3
deriving DecidableEq, Repr

/-- The transparent pixel of palette 0 (R416, R418, R420). -/
def Pixel.clear : Pixel := { px := 0, pal := 0 }

/-- `BackgroundPixel()` (R416). -/
def backgroundPixel (p : Ppu) : Pixel :=
  if p.showBg && (p.bgLeft || decide (9 ≤ p.cycle)) then
    let k := 15 - p.fineX.toNat
    { px := BitVec.ofBool (p.bgPatHi.getLsbD k) ++ BitVec.ofBool (p.bgPatLo.getLsbD k)
      pal := 0#1 ++ (BitVec.ofBool (p.bgAttHi.getLsbD k) ++ BitVec.ofBool (p.bgAttLo.getLsbD k)) }
  else .clear

/-- The foreground pixel with its priority and whether it comes from slot 0 (R418). -/
structure SpritePixel where
  pixel : Pixel
  front : Bool
  zero  : Bool
deriving DecidableEq, Repr

/-- No sprite pixel. -/
def SpritePixel.clear : SpritePixel := { pixel := .clear, front := false, zero := false }

/-- The pixel a slot shows now (R418). -/
def SpriteSlot.px (q : SpriteSlot) : BitVec 2 := BitVec.ofBool (q.hi.getLsbD 7) ++ BitVec.ofBool (q.lo.getLsbD 7)

/-- The first of the first `n` slots, the slot numbers counted from `i`, that is reached and opaque (R418). -/
def firstOpaque : Nat → Nat → List SpriteSlot → SpritePixel
  | 0, _, _ => .clear
  | _, _, [] => .clear
  | n + 1, i, q :: rest =>
    if q.x = 0 ∧ q.px ≠ 0 then
      { pixel := { px := q.px, pal := 1#1 ++ q.attr.extractLsb' 0 2 }
        front := !q.attr.getLsbD 5
        zero := decide (i = 0) }
    else firstOpaque n (i + 1) rest

/-- `ForegroundPixel()` (R418). -/
def foregroundPixel (p : Ppu) : SpritePixel :=
  if p.showSpr && (p.sprLeft || decide (9 ≤ p.cycle)) then firstOpaque p.spriteCount 0 p.slots else .clear

/-- `Composite()` (R420): both transparent gives palette entry 0. -/
def composite (bg : Pixel) (fg : SpritePixel) : Pixel :=
  if bg.px = 0 ∧ fg.pixel.px = 0 then .clear
  else if bg.px = 0 then fg.pixel
  else if fg.pixel.px = 0 then bg
  else if fg.front then fg.pixel
  else bg

/-- `SpriteZeroTest()` in the both-opaque case (R424). -/
def spriteZeroHit (p : Ppu) (bg : Pixel) (fg : SpritePixel) : Bool :=
  decide (bg.px ≠ 0) && decide (fg.pixel.px ≠ 0) && p.spr0Possible && fg.zero && p.showBg && p.showSpr
    && decide (1 ≤ p.cycle) && decide (p.cycle < 258)

/-- The palette address of a pixel (R426). -/
def pixelAddr (q : Pixel) : Word := 0x3F00 + (q.pal.setWidth 16 <<< 2) + q.px.setWidth 16

/-- Put a colour index in the frame (R426, R48). `c` is a palette read, so its mask (R105) leaves just these 6 bits. -/
def Ppu.plot (p : Ppu) (c : Byte) : Ppu :=
  if p.cycle ≤ 256 then
    { p with frame := Memory.put p.frame (p.scanline.toNat * 256 + (p.cycle - 1)) (c.setWidth 6) }
  else p

/-- `Compose()` (R426); the caller restricts it to scanlines 0 to 239 and cycles 1 to 257. -/
def compose (s : State) : State :=
  let bg := backgroundPixel s.ppu
  let fg := foregroundPixel s.ppu
  let t := s.mapPpu fun p =>
    { p with spr0Rendered := fg.zero, spr0Hit := p.spr0Hit || spriteZeroHit p bg fg }
  let c := ppuRead (pixelAddr (composite bg fg)) t
  c.2.mapPpu fun p => p.plot c.1

/-! The tick (R380). -/

/-- `ScanlineEndHook()` (R434): the output pulse, when rendering is enabled. -/
def scanlineEndHook (s : State) : State :=
  if s.ppu.rendering then { s with outputs := { s.outputs with scanlineEnd := true } } else s

/-- Is the cycle in [2,258) or [321,338) (R388). -/
def inShiftWindow (cy : Nat) : Bool := (decide (2 ≤ cy) && decide (cy < 258)) || (decide (321 ≤ cy) && decide (cy < 338))

/-- Steps 3 and 4 of R380, with the window of R404 for the sprites. -/
def shiftAndFetch (cy : Nat) (s : State) : State :=
  fetchStep ((cy - 1) % 8) (doIf (decide (cy < 258)) (State.mapPpu updateSprites) (s.mapPpu shiftBackground))

/-- Steps 2 to 10 of R380, on scanlines -1 to 239. -/
def renderSteps (sl : Int) (cy : Nat) (s : State) : State :=
  let s := doIf (decide (sl = -1) && decide (cy = 1)) (State.mapPpu preRenderClear) s
  let s := doIf (inShiftWindow cy) (shiftAndFetch cy) s
  let s := doIf (decide (cy = 256)) (State.mapPpu incrementY) s
  let s := doIf (decide (cy = 257)) (State.mapPpu fun p => transferX (loadShifters p)) s
  let s := doIf (decide (cy = 338) || decide (cy = 340)) fetchTileId s
  let s := doIf (decide (sl = -1) && (decide (280 ≤ cy) && decide (cy < 305))) (State.mapPpu transferY) s
  let s := doIf (decide (0 ≤ sl) && decide (cy = 257)) (State.mapPpu evaluateSprites) s
  doIf (decide (0 ≤ sl) && decide (cy = 340)) fetchSprites s

/-- Steps 2 to 13 of R380 at a position. -/
def positionSteps (sl : Int) (cy : Nat) (s : State) : State :=
  let s := doIf (decide (-1 ≤ sl) && decide (sl ≤ 239)) (renderSteps sl cy) s
  let s := doIf (decide (sl = 241) && decide (cy = 1)) (State.mapPpu vblankSet) s
  let s := doIf (decide (0 ≤ sl) && decide (sl ≤ 239) && (decide (1 ≤ cy) && decide (cy ≤ 257))) compose s
  doIf (decide (sl ≤ 239) && decide (cy = 260)) scanlineEndHook s

/-- `PpuTick()` (R380). -/
def ppuTick (s : State) : State :=
  let t := s.mapPpu oddFrameSkip
  (positionSteps t.ppu.scanline t.ppu.cycle t).mapPpu advance

end Sys2Proof.Machine
end

