-- ==== Sys2Proof/Machine/Orch.lean ====
section
/-! DEFINITION. The orchestrator (spec/49_orchestrator_dma.md) but for the tick itself: fetching an instruction (R170),
the DMA slot, the sound slot, the audio clock and interrupt routing. -/

namespace Sys2Proof.Machine

/-! Fetching an instruction (R22, R170, R172). -/

/-- Read the byte at PC and advance PC (R170). -/
def fetchByte (s : State) : Byte × State :=
  let r := memRead s.cpu.pc s
  (r.1, r.2.setPc (r.2.cpu.pc + 1))

/-- Read the opcode and the operand bytes it calls for, in ascending order, and advance PC past them. -/
def fetchInstr (s : State) : Instr × State :=
  let op := fetchByte s
  match opcodeEntry op.1 with
  | .f1 i => (i, op.2)
  | .f2 make =>
    let b := fetchByte op.2
    (make b.1, b.2)
  | .f3 make =>
    let l := fetchByte op.2
    let h := fetchByte l.2
    (make (wordOf h.1 l.1), h.2)

/-- One CPU cycle is spent (R170). -/
def spendCycle (s : State) : State := s.setCycles (s.cpu.cycles - 1)

/-! The DMA engine (R456 to R462). -/

/-- Is this system tick a CPU-rate slot (R451). -/
def isCpuSlot (s : State) : Bool := decide (s.orch.counter % 3 = 0)

/-- The index after a byte is written: at the wrap from 0xFF to 0x00 the transfer ends (R460, R461). -/
def Orch.nextByte (o : Orch) : Orch :=
  if o.dmaIndex = 0xFF then { o with dmaIndex := 0, dmaActive := false, dmaAlign := true }
  else { o with dmaIndex := o.dmaIndex + 1 }

/-- The write slot of the DMA engine (R460, R461). -/
def dmaWrite (s : State) : State :=
  (s.mapPpu fun p => p.setOam s.orch.dmaIndex s.orch.dmaData).mapOrch Orch.nextByte

/-- The read slot of the DMA engine (R459). -/
def dmaRead (s : State) : State :=
  let r := memRead (wordOf s.orch.dmaPage s.orch.dmaIndex) s
  r.2.mapOrch fun o => { o with dmaData := r.1 }

/-- `DmaSlot()` (R457, R458). -/
def dmaSlot (s : State) : State :=
  if s.orch.dmaAlign then
    if s.orch.counter % 2 = 1 then s.mapOrch fun o => { o with dmaAlign := false } else s
  else if s.orch.counter % 2 = 0 then dmaRead s
  else dmaWrite s

/-! Sound and audio time (R470, R472). -/

/-- `SoundSlot()` (R470): the whole queue is delivered, oldest first, and the sound unit is clocked. -/
def soundSlot (s : State) : State :=
  { s with
    orch := { s.orch with soundQueue := [] }
    outputs := { s.outputs with soundWrites := s.orch.soundQueue, soundClock := true } }

/-- The audio time after one more graphics cycle, before the threshold is taken off (R472). -/
def audioSum (s : State) : Rat := s.orch.audioTime + 1 / s.params.graphicsClockHz

/-- `sample_due`: the threshold 1 / AUDIO_SAMPLE_HZ is reached (R472). -/
def sampleDue (s : State) : Bool := decide (1 / Config.audioSampleHz ≤ audioSum s)

/-- `AudioTime()` (R472): the time is accumulated, and at the threshold a sample goes to the host. -/
def audioTime (s : State) : State :=
  { s with
    orch := { s.orch with audioTime := if sampleDue s then audioSum s - 1 / Config.audioSampleHz else audioSum s }
    outputs := { s.outputs with sample := if sampleDue s then some (Config.soundSample s.orch.counter) else .none } }

/-! Interrupt routing (R464 to R466). -/

/-- NMI routing (R464). -/
def routeNmi (s : State) : State :=
  if s.ppu.nmiRequest then nmi (s.mapPpu fun p => { p with nmiRequest := false }) else s

/-- IRQ routing (R465): the request is cleared whether or not the CPU honours it. -/
def routeIrq (s : State) : State :=
  let r := s.cart.irqPending
  let t := s.setCart r.2
  if r.1 then irq { t with cart := t.cart.irqClear, outputs := { t.outputs with irqClear := true } } else t

/-- The end of a system tick, after the CPU or DMA slot (R450). -/
def tickEnd (s : State) : State :=
  let t := routeIrq (routeNmi (audioTime s))
  t.mapOrch fun o => { o with counter := o.counter + 1 }

/-- The beginning of a system tick: the output pulses are withdrawn and the PPU does its tick (R450). -/
def tickBegin (s : State) : State := ppuTick { s with outputs := Outputs.none }

end Sys2Proof.Machine
end

