-- ==== Sys2Proof/Machine/Tick.lean ====
section
/-! DEFINITION. The CPU tick (R170) and the system tick (R450), the top-level step of the machine. -/

namespace Sys2Proof.Machine

/-- Go on from a next state; a fault or a refusal stays. -/
def onNext (r : Result) (f : State → State) : Result :=
  match r with
  | .next s => .next (f s)
  | .fault e => .fault e
  | .refused e => .refused e

/-- `CpuTick()` (R170): fetch and run an instruction when no cycle is owed; then spend one cycle. -/
def cpuTick (s : State) : Result :=
  if s.cpu.cycles = 0 then
    let i := fetchInstr s
    onNext (exec i.1 i.2) spendCycle
  else .next (spendCycle s)

/-- The CPU-rate slot of a system tick, if this is one (R450, R451, R452). -/
def cpuSlot (s : State) : Result :=
  if isCpuSlot s then
    if s.orch.dmaActive then .next (soundSlot (dmaSlot s)) else onNext (cpuTick s) soundSlot
  else .next s

/-- `SystemTick()` (R450): PPU, then CPU or DMA, then sound and audio, then NMI, then IRQ. -/
def systemTick (s : State) : Result := onNext (cpuSlot (tickBegin s)) tickEnd

/-! Placing an instruction where the next step fetches it (log entry 4). -/

/-- A one-byte read-only chip. -/
def Chip.one (a : Word) (b : Byte) : Chip := { base := a.toNat, size := 1, writable := false, fill := b, cells := [] }

/-- Make a CPU read of the address give the byte: work memory if the address lies there and the cartridge does not claim
it, else a one-byte chip of the cartridge that is asked first. -/
def placeByte (a : Word) (b : Byte) (s : State) : State :=
  if a.toNat < 0x2000 ∧ s.cart.oracle = false ∧ chipsRead s.cart.cpuChips a.toNat = none then s.setWork a b
  else s.setCart { s.cart with oracle := false, cpuChips := Chip.one a b :: s.cart.cpuChips }

/-- What else the next step needs to fetch: no reset event waiting, a CPU-rate slot, no DMA, no cycle owed. -/
def readyToFetch (s : State) : State :=
  { s with
    cpu := { s.cpu with cycles := 0 }
    orch := { s.orch with
      counter := s.orch.counter / 3 * 3
      dmaActive := false
      dmaAlign := s.orch.dmaAlign || s.orch.dmaActive }
    inputs := { s.inputs with reset := false } }

/-- The bytes of a word numbered as spec/opcode_table.json numbers it, placed at PC, PC + 1 and PC + 2. -/
def placeWord (nbits w : Nat) (s : State) : State :=
  let v := w % 2 ^ nbits
  let t := readyToFetch s
  placeByte (t.cpu.pc + 2) (BitVec.ofNat 8 (v / 65536))
    (placeByte (t.cpu.pc + 1) (BitVec.ofNat 8 (v / 256)) (placeByte t.cpu.pc (BitVec.ofNat 8 v) t))

end Sys2Proof.Machine
end

