-- ==== Sys2Proof/Machine/Step.lean ====
section
/-! DEFINITION. One step of the machine: a waiting reset event is taken (R530), else one system tick happens (R450). -/

namespace Sys2Proof.Machine

/-- One step. The reset event is taken between two system ticks and takes a step of its own (log entry 7). -/
def step (s : State) : Host.Outcome State Fault Refusal :=
  if s.inputs.reset then .next (systemReset s) else systemTick s

/-- `s` with the instruction placed where `step` fetches its next instruction, so that the next step runs it (log
entry 4). -/
def State.withFetchWord (s : State) (nbits w : Nat) : State := placeWord nbits w s

end Sys2Proof.Machine
end

