-- ==== Sys2Proof/WellFormed.lean ====
section
/-! DEFINITION. Well-formed instructions. The operand fields of `Instr` are bytes and words by type and no encoding is
reserved (R140, R146), so what is left to check is the byte sequence: it is one whole instruction and nothing more. -/

namespace Sys2Proof

/-- Why a byte sequence is not the encoding of one instruction. -/
inductive FormError where
  | empty     -- no opcode byte
  | tooShort  -- operand bytes are missing (R140)
  | tooLong   -- bytes stand after the instruction's last byte (R140)
deriving DecidableEq, Repr

/-- The check of a byte sequence against the length its opcode gives (R141). -/
def formError (bytes : List Byte) : Option FormError :=
  match bytes with
  | [] => some .empty
  | op :: _ =>
    if bytes.length < instrLength op then some .tooShort
    else if instrLength op < bytes.length then some .tooLong
    else none

/-- A byte sequence that is exactly one instruction (R140, R141). -/
def bytesWellFormed (bytes : List Byte) : Bool := (formError bytes).isNone

/-- An instruction is well-formed when its words are exactly one instruction. -/
def Instr.wellFormed (i : Instr) : Bool := bytesWellFormed (encode i)

end Sys2Proof
end

