-- ==== Sys2Proof/Safety.lean ====
section
/-! DEFINITION. The terms the claims use: the invariant of the machine between two steps, what a bus read may change,
which addresses share a cell, and the byte-by-byte views of fetching and of a DMA transfer. A safe run is one in which
every step answers a next state that keeps the invariant; the block raises no fault (R490). -/

namespace Sys2Proof.Machine

/-! The invariant. -/

/-- The palette indices that can be accessed (R104): not 0x10, 0x14, 0x18, 0x1C. -/
def paletteSlot (i : Nat) : Bool := decide (i < 32) && !decide (16 ≤ i ∧ i % 4 = 0)

/-- A chip of a concrete cartridge lists only its own addresses, in canonical form, none at its fill byte. -/
def Chip.wf (c : Chip) : Bool := Memory.wfFill c.covers c.fill c.cells

/-- The PPU: its memories are canonical and inside their sizes (R38, R47, R48), the sprite slots are 8 (R39, R40), and the
position is inside the frame (R44). -/
structure Ppu.Inv (p : Ppu) : Prop where
  oam : Memory.wf (fun a => decide (a < 256)) p.oam = true
  nametable : Memory.wf (fun a => decide (a < 2048)) p.nametable = true
  palette : Memory.wf paletteSlot p.palette = true
  pattern : Memory.wf (fun a => decide (a < 8192)) p.pattern = true
  frame : Memory.wf (fun a => decide (a < 61440)) p.frame = true
  slots : p.slots.length = 8
  count : p.spriteCount ≤ 8
  zero : p.spr0Possible = true → 0 < p.spriteCount
  line : -1 ≤ p.scanline ∧ p.scanline ≤ 260
  dot : p.cycle ≤ 340

/-- ORCH: work memory is canonical and inside 2048 bytes (R52), the engine waits for alignment whenever no transfer is in
flight (R456), and audio time is not negative (R56). -/
structure Orch.Inv (o : Orch) : Prop where
  work : Memory.wf (fun a => decide (a < 2048)) o.workRam = true
  align : o.dmaActive = false → o.dmaAlign = true
  audio : 0 ≤ o.audioTime

/-- A concrete cartridge's chips are canonical (log entry 3). -/
structure Cart.Inv (c : Cart) : Prop where
  cpu : c.cpuChips.all Chip.wf = true
  ppu : c.ppuChips.all Chip.wf = true

/-- The OPEN parameters are in their ranges (D5, D29). -/
structure Params.Inv (p : Params) : Prop where
  reset : 1 ≤ p.resetCycles
  irq : 1 ≤ p.irqCycles
  nmi : 1 ≤ p.nmiCycles
  clock : 0 < p.graphicsClockHz

/-- The largest value `cycles_remaining` takes (R27): the largest opcode cost, 8, or a larger sequence cost. -/
def Params.maxCycles (p : Params) : Nat := max 8 (max p.resetCycles (max p.irqCycles p.nmiCycles))

/-- The invariant of the machine between two steps. -/
structure State.Inv (s : State) : Prop where
  ppu : s.ppu.Inv
  orch : s.orch.Inv
  cart : s.cart.Inv
  params : s.params.Inv
  /-- R27 -/
  cycles : s.cpu.cycles ≤ s.params.maxCycles
  /-- the queue is drained in the slot that fills it (R470) -/
  queue : s.orch.soundQueue = []

/-! Frames. -/

/-- All that a bus read can change (R95): the vertical-blank flag and the write toggle (port 2), the read buffer and `v`
(port 7), a controller shift register, and how often an arbitrary cartridge has been asked. The CPU may differ too. -/
def ReadFrame (s t : State) : Prop :=
  t = { s with
    cpu := t.cpu
    ppu := { s.ppu with vblank := t.ppu.vblank, w := t.ppu.w, dataBuffer := t.ppu.dataBuffer, v := t.ppu.v }
    orch := { s.orch with shift0 := t.orch.shift0, shift1 := t.orch.shift1 }
    cart := { s.cart with asks := t.cart.asks } }

/-- A CPU address whose read has no side effect inside the block (R95): not a PPU port, not a controller port. -/
def plainAddr (a : Word) : Bool :=
  !(decide (0x2000 ≤ a.toNat) && decide (a.toNat < 0x4000)) && decide (a ≠ 0x4016) && decide (a ≠ 0x4017)

/-- Two CPU addresses that name one byte: equal, or mirrors in the work-memory window (R83). -/
def sameCell (a b : Word) : Bool :=
  decide (a = b) || (decide (a.toNat < 0x2000) && decide (b.toNat < 0x2000) && decide (a.toNat % 2048 = b.toNat % 2048))

/-- The cartridge is concrete and claims neither reads nor writes of the address. -/
def unclaimed (a : Word) (s : State) : Prop :=
  s.cart.oracle = false ∧ chipsRead s.cart.cpuChips a.toNat = none ∧ ∀ v, chipsWrite s.cart.cpuChips a.toNat v = none

/-! Views of longer activities. -/

/-- The `n` bytes from an address upwards, read in that order (R92), and the state after the reads. -/
def readBytes : Nat → Word → State → List Byte × State
  | 0, _, s => ([], s)
  | n + 1, a, s =>
    let b := memRead a s
    let r := readBytes n (a + 1) b.2
    (b.1 :: r.1, r.2)

/-- `n` CPU-rate slots of the DMA engine, three system ticks apart (R451, R457). -/
def dmaSlots : Nat → State → State
  | 0, s => s
  | n + 1, s => dmaSlots n ((dmaSlot s).mapOrch fun o => { o with counter := o.counter + 3 })

/-- Writes to the Scroll port in order (R347, R353). -/
def scrollWrites : List Byte → Ppu → Ppu
  | [], p => p
  | d :: rest, p => scrollWrites rest (writeScroll d p)

/-- `n` reads of a controller port in a row, and the state after them (R90). -/
def controllerReads (read : State → Byte × State) : Nat → State → List Byte × State
  | 0, s => ([], s)
  | n + 1, s =>
    let b := read s
    let r := controllerReads read n b.2
    (b.1 :: r.1, r.2)

/-- `n` PPU ticks in a row (R380). -/
def ppuTicks : Nat → State → State
  | 0, s => s
  | n + 1, s => ppuTicks n (ppuTick s)

/-! The operand and the classes of instructions, as the spec lists them. -/

/-- `Operand(mode, ea)` of an instruction (R186) after its mode's pointer reads, and the state after both. -/
def operandOf (i : Instr) (s : State) : Byte × State :=
  let r := resolve i.operand s
  readPlace r.place r.state

/-- `extra_mode` of an instruction (R171), as a number of cycles. -/
def modeExtra (i : Instr) (s : State) : Nat := (resolve i.operand s).extra.toNat

/-- Whether a branch is taken (R254 to R261). -/
def branchTaken (m : Mnemonic) (p : Flags) : Bool :=
  match m with
  | .bcc => !p.c
  | .bcs => p.c
  | .beq => p.z
  | .bne => !p.z
  | .bmi => p.n
  | .bpl => !p.n
  | .bvc => !p.v
  | .bvs => p.v
  | _ => false

end Sys2Proof.Machine

namespace Sys2Proof

/-! The classes of mnemonics the rules speak of. -/

/-- The instructions whose `extra_op` is 1 (R171; LAS R324; the absolute-X NOPs R303). -/
def Mnemonic.extraOp (m : Mnemonic) : Bool :=
  [.lda, .ldx, .ldy, .adc, .sbc, .and, .ora, .eor, .cmp, .lax, .las, .nop].contains m

/-- The instructions that store a byte at their effective address and read nothing there (R193 to R195, R305). -/
def Mnemonic.stores (m : Mnemonic) : Bool := [.sta, .stx, .sty, .sax].contains m

/-- The instructions that read and then write at their effective address or at A (R172). -/
def Mnemonic.modifies (m : Mnemonic) : Bool :=
  [.inc, .dec, .asl, .lsr, .rol, .ror, .slo, .rla, .sre, .rra, .dcp, .isc].contains m

/-- The instructions that push (R251, R262, R280, R281). -/
def Mnemonic.pushes (m : Mnemonic) : Bool := [.jsr, .brk, .pha, .php].contains m

/-- The instructions that write A. -/
def Mnemonic.writesA (m : Mnemonic) : Bool :=
  [.lda, .txa, .tya, .pla, .adc, .sbc, .and, .ora, .eor, .lax, .slo, .rla, .sre, .rra, .isc, .anc, .alr, .arr].contains m

/-- The instructions that write X. -/
def Mnemonic.writesX (m : Mnemonic) : Bool := [.ldx, .tax, .tsx, .inx, .dex, .lax, .axs].contains m

/-- The instructions that write Y. -/
def Mnemonic.writesY (m : Mnemonic) : Bool := [.ldy, .tay, .iny, .dey].contains m

/-- The instructions that write S (R21). -/
def Mnemonic.writesS (m : Mnemonic) : Bool :=
  [.txs, .pha, .php, .pla, .plp, .jsr, .rts, .brk, .rti].contains m

/-- The instructions that write PC beyond advancing past their own bytes. -/
def Mnemonic.writesPc (m : Mnemonic) : Bool :=
  [.jmp, .jsr, .rts, .brk, .rti, .bcc, .bcs, .beq, .bne, .bmi, .bpl, .bvc, .bvs].contains m

/-- The "written by" column of R25 for C. -/
def Mnemonic.writesC (m : Mnemonic) : Bool :=
  [.adc, .sbc, .cmp, .cpx, .cpy, .asl, .lsr, .rol, .ror, .clc, .sec, .plp, .rti, .slo, .rla, .sre, .rra, .dcp, .isc, .anc,
   .alr, .arr, .axs].contains m

/-- The "written by" column of R25 for Z and for N. -/
def Mnemonic.writesZN (m : Mnemonic) : Bool :=
  [.lda, .ldx, .ldy, .tax, .tay, .txa, .tya, .tsx, .adc, .sbc, .and, .ora, .eor, .cmp, .cpx, .cpy, .bit, .inc, .dec, .inx,
   .iny, .dex, .dey, .asl, .lsr, .rol, .ror, .pla, .plp, .rti, .lax, .slo, .rla, .sre, .rra, .dcp, .isc, .anc, .alr, .arr,
   .axs].contains m

/-- The "written by" column of R25 for I, instructions only. -/
def Mnemonic.writesI (m : Mnemonic) : Bool := [.sei, .cli, .plp, .rti, .brk].contains m

/-- The "written by" column of R25 for D, instructions only. -/
def Mnemonic.writesD (m : Mnemonic) : Bool := [.sed, .cld, .plp, .rti].contains m

/-- The "written by" column of R25 for V. -/
def Mnemonic.writesV (m : Mnemonic) : Bool :=
  [.adc, .sbc, .bit, .clv, .plp, .rti, .rra, .isc, .arr].contains m

end Sys2Proof
end

