-- ==== Sys2Proof/Certificates/Slice0/Obligations.lean ====
section
/-! DEFINITION. The statements for the provers. Each says which rule of spec/ it formalises. In a result statement the
conclusion is the whole next state, so it is also the statement that the instruction completes, and its frame. -/

open Sys2Proof Sys2Proof.Machine

/-! Results of the instructions, for every form and from every state. -/

/-- R190, R191, R192, R304: LDA, LDX, LDY and LAX load the operand whole, set Z and N from it and change nothing else;
one more cycle when the mode asks for it. -/
def Obligations.LoadResult : Prop :=
  ∀ (i : Instr) (s : State),
    let m := operandOf i s
    let p := { s.cpu.p with z := decide (m.1 = 0), n := m.1.getLsbD 7 }
    let n := i.baseCycles + modeExtra i s
    (i.mnemonic = .lda → exec i s = .next { m.2 with cpu := { s.cpu with a := m.1, p := p, cycles := n } }) ∧
    (i.mnemonic = .ldx → exec i s = .next { m.2 with cpu := { s.cpu with x := m.1, p := p, cycles := n } }) ∧
    (i.mnemonic = .ldy → exec i s = .next { m.2 with cpu := { s.cpu with y := m.1, p := p, cycles := n } }) ∧
    (i.mnemonic = .lax → exec i s = .next { m.2 with cpu := { s.cpu with a := m.1, x := m.1, p := p, cycles := n } })

/-- R193, R194, R195, R305: STA, STX, STY and SAX write A, X, Y or A & X at the effective address, read nothing there,
set no flag, and cost the base cycles whether or not a page is crossed. -/
def Obligations.StoreResult : Prop :=
  ∀ (i : Instr) (s : State),
    let r := resolve i.operand s
    let done := fun (v : Byte) => ∃ ea, r.place = .mem ea ∧
      exec i s = .next { memWrite ea v r.state with cpu := { s.cpu with cycles := i.baseCycles } }
    (i.mnemonic = .sta → done s.cpu.a) ∧ (i.mnemonic = .stx → done s.cpu.x) ∧ (i.mnemonic = .sty → done s.cpu.y) ∧
    (i.mnemonic = .sax → done (s.cpu.a &&& s.cpu.x))

/-- R196 to R201, R221 to R224: the register transfers and the register counts, modulo 256. TXS alone sets no flag; the
others set Z and N; C and V stay. -/
def Obligations.TransferResult : Prop :=
  ∀ (s : State),
    let zn := fun (v : Byte) => { s.cpu.p with z := decide (v = 0), n := v.getLsbD 7 }
    let up := fun (v : Byte) => BitVec.ofNat 8 (v.toNat + 1)
    let down := fun (v : Byte) => BitVec.ofNat 8 (v.toNat + 255)
    exec .tax s = .next { s with cpu := { s.cpu with x := s.cpu.a, p := zn s.cpu.a, cycles := 2 } } ∧
    exec .tay s = .next { s with cpu := { s.cpu with y := s.cpu.a, p := zn s.cpu.a, cycles := 2 } } ∧
    exec .txa s = .next { s with cpu := { s.cpu with a := s.cpu.x, p := zn s.cpu.x, cycles := 2 } } ∧
    exec .tya s = .next { s with cpu := { s.cpu with a := s.cpu.y, p := zn s.cpu.y, cycles := 2 } } ∧
    exec .tsx s = .next { s with cpu := { s.cpu with x := s.cpu.s, p := zn s.cpu.s, cycles := 2 } } ∧
    exec .txs s = .next { s with cpu := { s.cpu with s := s.cpu.x, cycles := 2 } } ∧
    exec .inx s = .next { s with cpu := { s.cpu with x := up s.cpu.x, p := zn (up s.cpu.x), cycles := 2 } } ∧
    exec .iny s = .next { s with cpu := { s.cpu with y := up s.cpu.y, p := zn (up s.cpu.y), cycles := 2 } } ∧
    exec .dex s = .next { s with cpu := { s.cpu with x := down s.cpu.x, p := zn (down s.cpu.x), cycles := 2 } } ∧
    exec .dey s = .next { s with cpu := { s.cpu with y := down s.cpu.y, p := zn (down s.cpu.y), cycles := 2 } }

/-- R210: ADC adds the operand and the carry. C says that the unsigned sum left 0 to 255, V that the signed sum left
-128 to 127, Z and N describe the 8-bit result; D changes nothing. -/
def Obligations.AddResult : Prop :=
  ∀ (i : Instr) (s : State), i.mnemonic = .adc →
    let m := operandOf i s
    let u : Nat := s.cpu.a.toNat + m.1.toNat + s.cpu.p.c.toNat
    let g : Int := s.cpu.a.toInt + m.1.toInt + s.cpu.p.c.toNat
    exec i s = .next { m.2 with cpu := { s.cpu with
      a := BitVec.ofNat 8 u
      p := { s.cpu.p with
        c := decide (255 < u), z := decide (u % 256 = 0), v := decide (g < -128 ∨ 127 < g), n := decide (128 ≤ u % 256) }
      cycles := i.baseCycles + modeExtra i s } }

/-- R211, R316: SBC (0xEB included) computes A - m - (1 - C). C says that no borrow occurred, V that the signed
difference left -128 to 127. -/
def Obligations.SubtractResult : Prop :=
  ∀ (i : Instr) (s : State), i.mnemonic = .sbc →
    let m := operandOf i s
    let d : Int := (s.cpu.a.toNat : Int) - m.1.toNat - (!s.cpu.p.c).toNat
    let g : Int := s.cpu.a.toInt - m.1.toInt - (!s.cpu.p.c).toNat
    exec i s = .next { m.2 with cpu := { s.cpu with
      a := BitVec.ofInt 8 d
      p := { s.cpu.p with
        c := decide (0 ≤ d), z := decide (d % 256 = 0), v := decide (g < -128 ∨ 127 < g), n := decide (128 ≤ d % 256) }
      cycles := i.baseCycles + modeExtra i s } }

/-- R212, R213, R214: AND, ORA and EOR, bit by bit into A; Z and N from the result, C and V unchanged. -/
def Obligations.LogicResult : Prop :=
  ∀ (i : Instr) (s : State),
    let m := operandOf i s
    let done := fun (v : Byte) => exec i s = .next { m.2 with cpu := { s.cpu with
      a := v, p := { s.cpu.p with z := decide (v = 0), n := v.getLsbD 7 }, cycles := i.baseCycles + modeExtra i s } }
    (i.mnemonic = .and → done (s.cpu.a &&& m.1)) ∧ (i.mnemonic = .ora → done (s.cpu.a ||| m.1)) ∧
    (i.mnemonic = .eor → done (s.cpu.a ^^^ m.1))

/-- R215, R216, R217, R218: CMP, CPX and CPY set C from the unsigned comparison, Z from equality and N from bit 7 of the
difference, and V stays; BIT takes Z from A & m and N and V from bits 7 and 6 of the operand, and C stays. No register
is written. -/
def Obligations.CompareResult : Prop :=
  ∀ (i : Instr) (s : State),
    let m := operandOf i s
    let done := fun (r : Byte) (n : Nat) => exec i s = .next { m.2 with cpu := { s.cpu with
      p := { s.cpu.p with
        c := decide (m.1.toNat ≤ r.toNat), z := decide (r = m.1)
        n := decide (128 ≤ ((r.toNat : Int) - m.1.toNat) % 256) }
      cycles := n } }
    (i.mnemonic = .cmp → done s.cpu.a (i.baseCycles + modeExtra i s)) ∧
    (i.mnemonic = .cpx → done s.cpu.x i.baseCycles) ∧ (i.mnemonic = .cpy → done s.cpu.y i.baseCycles) ∧
    (i.mnemonic = .bit → exec i s = .next { m.2 with cpu := { s.cpu with
      p := { s.cpu.p with z := decide (s.cpu.a &&& m.1 = 0), v := m.1.getLsbD 6, n := m.1.getLsbD 7 }
      cycles := i.baseCycles } })

/-- R219, R220, R240 to R243: INC, DEC, ASL, LSR, ROL and ROR read the operand once, write the result once at the same
place (A or memory), and set the flags the rules name; the cost is fixed. -/
def Obligations.ModifyResult : Prop :=
  ∀ (i : Instr) (s : State),
    let r := resolve i.operand s
    let m := readPlace r.place r.state
    let x := m.1.toNat
    let done := fun (v : Nat) (c : Bool) =>
      let t := writePlace r.place (BitVec.ofNat 8 v) m.2
      exec i s = .next { t with cpu := { t.cpu with
        p := { s.cpu.p with c := c, z := decide (v % 256 = 0), n := decide (128 ≤ v % 256) }, cycles := i.baseCycles } }
    (i.mnemonic = .inc → done (x + 1) s.cpu.p.c) ∧ (i.mnemonic = .dec → done (x + 255) s.cpu.p.c) ∧
    (i.mnemonic = .asl → done (2 * x) (decide (128 ≤ x))) ∧ (i.mnemonic = .lsr → done (x / 2) (decide (x % 2 = 1))) ∧
    (i.mnemonic = .rol → done (2 * x + s.cpu.p.c.toNat) (decide (128 ≤ x))) ∧
    (i.mnemonic = .ror → done (x / 2 + 128 * s.cpu.p.c.toNat) (decide (x % 2 = 1)))

/-- R250, R251, R252 (pointer: R180): JMP goes to its operand, or to the pointer at its operand, whose high byte comes
from the start of the same page when the low byte of the pointer's address is 0xFF; nothing is read at the target and no
flag changes. JSR pushes the address of its last byte, high byte first, and jumps; RTS pops it, low byte first, and adds
1. -/
def Obligations.JumpResult : Prop :=
  ∀ (w : Word) (s : State),
    exec (.jmpAbs w) s = .next { s with cpu := { s.cpu with pc := w, cycles := 3 } } ∧
    (let high := if w.toNat % 256 = 255 then w - 255 else w + 1
     let l := memRead w s
     let h := memRead high l.2
     exec (.jmpInd w) s = .next { h.2 with cpu := { s.cpu with pc := wordOf h.1 l.1, cycles := 5 } }) ∧
    (let ret := s.cpu.pc - 1
     let t := memWrite (stackAddr s.cpu.s) (hi ret) s
     let u := memWrite (stackAddr (s.cpu.s - 1)) (lo ret) t
     exec (.jsr w) s = .next { u with cpu := { s.cpu with s := s.cpu.s - 2, pc := w, cycles := 6 } }) ∧
    (let l := memRead (stackAddr (s.cpu.s + 1)) s
     let h := memRead (stackAddr (s.cpu.s + 2)) l.2
     exec .rts s = .next { h.2 with cpu := { s.cpu with s := s.cpu.s + 2, pc := wordOf h.1 l.1 + 1, cycles := 6 } })

/-- R253 to R261 (target: R185): a taken branch goes to the address of the next instruction plus the signed offset,
modulo 2^16, for 3 cycles, or 4 when the target lies on another page; an untaken one costs 2. Flags and memory stay. -/
def Obligations.BranchResult : Prop :=
  ∀ (i : Instr) (b : Byte) (s : State), i.operand = .rel b →
    let target := BitVec.ofInt 16 ((s.cpu.pc.toNat : Int) + b.toInt)
    exec i s = .next { s with cpu := { s.cpu with
      pc := if branchTaken i.mnemonic s.cpu.p then target else s.cpu.pc
      cycles := if branchTaken i.mnemonic s.cpu.p then
        if target.toNat / 256 = s.cpu.pc.toNat / 256 then 3 else 4 else 2 } }

/-- R262, R263: BRK pushes the address after its padding byte, high byte first, and P with Break and Unused set, sets
Interrupt-disable and goes to the vector at 0xFFFE, whatever I was. RTI pops the status byte, whose bits 4 and 5 are
ignored, then PC low and PC high, and adds nothing. -/
def Obligations.BrkRtiResult : Prop :=
  ∀ (s : State),
    (let ret := s.cpu.pc + 1
     let t := memWrite (stackAddr s.cpu.s) (hi ret) s
     let u := memWrite (stackAddr (s.cpu.s - 1)) (lo ret) t
     let v := memWrite (stackAddr (s.cpu.s - 2)) (s.cpu.p.toByte ||| 0x30) u
     let l := memRead 0xFFFE v
     let h := memRead 0xFFFF l.2
     exec .brk s = .next { h.2 with cpu := { s.cpu with
       s := s.cpu.s - 3, p := { s.cpu.p with i := true }, pc := wordOf h.1 l.1, cycles := 7 } }) ∧
    (let p := memRead (stackAddr (s.cpu.s + 1)) s
     let l := memRead (stackAddr (s.cpu.s + 2)) p.2
     let h := memRead (stackAddr (s.cpu.s + 3)) l.2
     ∃ q : Flags, q.toByte = (p.1 &&& 0xCF) ||| 0x20 ∧
       exec .rti s = .next { h.2 with cpu := { s.cpu with s := s.cpu.s + 3, p := q, pc := wordOf h.1 l.1, cycles := 6 } })

/-- R280 to R283: PHA and PHP write at the stack pointer and lower it; PLA and PLP raise it and read; PLP ignores bits 4
and 5 of the byte. -/
def Obligations.StackResult : Prop :=
  ∀ (s : State),
    let up := memRead (stackAddr (s.cpu.s + 1)) s
    exec .pha s = .next { memWrite (stackAddr s.cpu.s) s.cpu.a s with
      cpu := { s.cpu with s := s.cpu.s - 1, cycles := 3 } } ∧
    exec .php s = .next { memWrite (stackAddr s.cpu.s) (s.cpu.p.toByte ||| 0x30) s with
      cpu := { s.cpu with s := s.cpu.s - 1, cycles := 3 } } ∧
    exec .pla s = .next { up.2 with cpu := { s.cpu with
      a := up.1, s := s.cpu.s + 1, p := { s.cpu.p with z := decide (up.1 = 0), n := up.1.getLsbD 7 }, cycles := 4 } } ∧
    ∃ q : Flags, q.toByte = (up.1 &&& 0xCF) ||| 0x20 ∧
      exec .plp s = .next { up.2 with cpu := { s.cpu with s := s.cpu.s + 1, p := q, cycles := 4 } }

/-- R284 to R290: each flag instruction changes its one flag. -/
def Obligations.FlagResult : Prop :=
  ∀ (s : State),
    let done := fun (i : Instr) (p : Flags) => exec i s = .next { s with cpu := { s.cpu with p := p, cycles := 2 } }
    done .clc { s.cpu.p with c := false } ∧ done .sec { s.cpu.p with c := true } ∧
    done .cli { s.cpu.p with i := false } ∧ done .sei { s.cpu.p with i := true } ∧
    done .cld { s.cpu.p with d := false } ∧ done .sed { s.cpu.p with d := true } ∧
    done .clv { s.cpu.p with v := false }

/-- R291, R301, R302, R303, R317 to R324: the NOPs, the JAM opcodes and the unstable opcodes change no register, flag or
memory. A NOP with a memory operand, ANE, LXA and LAS read their operand once, with the read's side effects; SHA, SHX,
SHY and TAS make no access at the effective address. -/
def Obligations.NopResult : Prop :=
  ∀ (i : Instr) (s : State),
    (i.mnemonic = .nop ∨ i.mnemonic = .jam ∨ i.mnemonic = .ane ∨ i.mnemonic = .lxa ∨ i.mnemonic = .las →
      exec i s = .next { (operandOf i s).2 with cpu := { s.cpu with cycles := i.baseCycles + modeExtra i s } }) ∧
    (i.mnemonic = .sha ∨ i.mnemonic = .shx ∨ i.mnemonic = .shy ∨ i.mnemonic = .tas →
      exec i s = .next { (resolve i.operand s).state with cpu := { s.cpu with cycles := i.baseCycles } })

/-- R306 to R311: SLO, RLA and SRE shift or rotate the memory operand, take C from the bit shifted out, and combine the
result with A, which gives Z and N. RRA rotates right and adds with the bit rotated out, DCP decrements and compares,
ISC increments and subtracts. -/
def Obligations.MemoryCombineResult : Prop :=
  ∀ (i : Instr) (s : State),
    let r := resolve i.operand s
    let m := readPlace r.place r.state
    let x := m.1.toNat
    let a := s.cpu.a.toNat
    let done := fun (v : Nat) (k : Byte) (p : Flags) => ∃ ea, r.place = .mem ea ∧
      exec i s = .next { memWrite ea (BitVec.ofNat 8 v) m.2 with
        cpu := { s.cpu with a := k, p := p, cycles := i.baseCycles } }
    let combine := fun (v : Nat) (c : Bool) (k : Byte) =>
      done v k { s.cpu.p with c := c, z := decide (k = 0), n := k.getLsbD 7 }
    let rotl := 2 * x + s.cpu.p.c.toNat
    (i.mnemonic = .slo → combine (2 * x) (decide (128 ≤ x)) (s.cpu.a ||| BitVec.ofNat 8 (2 * x))) ∧
    (i.mnemonic = .rla → combine rotl (decide (128 ≤ x)) (s.cpu.a &&& BitVec.ofNat 8 rotl)) ∧
    (i.mnemonic = .sre → combine (x / 2) (decide (x % 2 = 1)) (s.cpu.a ^^^ BitVec.ofNat 8 (x / 2))) ∧
    (i.mnemonic = .rra →
      let v := x / 2 + 128 * s.cpu.p.c.toNat
      let u := a + v + x % 2
      let g := s.cpu.a.toInt + (BitVec.ofNat 8 v).toInt + (x % 2 : Nat)
      done v (BitVec.ofNat 8 u) { s.cpu.p with
        c := decide (255 < u), z := decide (u % 256 = 0), v := decide (g < -128 ∨ 127 < g), n := decide (128 ≤ u % 256) }) ∧
    (i.mnemonic = .dcp →
      let v := (x + 255) % 256
      done v s.cpu.a { s.cpu.p with
        c := decide (v ≤ a), z := decide (v = a), n := decide (128 ≤ ((a : Int) - v) % 256) }) ∧
    (i.mnemonic = .isc →
      let v := (x + 1) % 256
      let d : Int := (a : Int) - v - (!s.cpu.p.c).toNat
      let g : Int := s.cpu.a.toInt - (BitVec.ofNat 8 v).toInt - (!s.cpu.p.c).toNat
      done v (BitVec.ofInt 8 d) { s.cpu.p with
        c := decide (0 ≤ d), z := decide (d % 256 = 0), v := decide (g < -128 ∨ 127 < g), n := decide (128 ≤ d % 256) })

/-- R312 to R315: ANC, ALR, ARR and AXS on an immediate byte. -/
def Obligations.ImmediateCombineResult : Prop :=
  ∀ (m : Byte) (s : State),
    let t := s.cpu.a &&& m
    let k := s.cpu.a &&& s.cpu.x
    let zn := fun (v : Byte) => { s.cpu.p with z := decide (v = 0), n := v.getLsbD 7 }
    let half := BitVec.ofNat 8 (t.toNat / 2)
    let rot := BitVec.ofNat 8 (t.toNat / 2 + 128 * s.cpu.p.c.toNat)
    let diff := k - m
    (∀ i, i = .anc0B m ∨ i = .anc2B m →
      exec i s = .next { s with cpu := { s.cpu with a := t, p := { zn t with c := t.getLsbD 7 }, cycles := 2 } }) ∧
    exec (.alr m) s = .next { s with cpu := { s.cpu with
      a := half, p := { zn half with c := decide (t.toNat % 2 = 1) }, cycles := 2 } } ∧
    exec (.arr m) s = .next { s with cpu := { s.cpu with
      a := rot, p := { zn rot with c := rot.getLsbD 6, v := rot.getLsbD 6 != rot.getLsbD 5 }, cycles := 2 } } ∧
    exec (.axs m) s = .next { s with cpu := { s.cpu with
      x := diff, p := { zn diff with c := decide (m.toNat ≤ k.toNat) }, cycles := 2 } }

/-! What the operand modes give. -/

/-- R173 to R184: the place each mode names, with the zero-page wraps, the pointer reads in order, and the extra-cycle
signal of the three indexed modes, which is a carry out of the low byte. -/
def Obligations.ModePlaces : Prop :=
  ∀ (b : Byte) (w : Word) (s : State),
    let x := s.cpu.x.toNat
    let y := s.cpu.y.toNat
    let ea := fun (n : Nat) => BitVec.ofNat 16 n
    resolve .imp s = ⟨.none, false, s⟩ ∧ resolve .acc s = ⟨.acc, false, s⟩ ∧ resolve (.imm b) s = ⟨.imm b, false, s⟩ ∧
    resolve (.zp b) s = ⟨.mem (ea b.toNat), false, s⟩ ∧
    resolve (.zpx b) s = ⟨.mem (ea ((b.toNat + x) % 256)), false, s⟩ ∧
    resolve (.zpy b) s = ⟨.mem (ea ((b.toNat + y) % 256)), false, s⟩ ∧
    resolve (.abs w) s = ⟨.mem w, false, s⟩ ∧
    resolve (.abx w) s = ⟨.mem (ea (w.toNat + x)), decide (256 ≤ w.toNat % 256 + x), s⟩ ∧
    resolve (.aby w) s = ⟨.mem (ea (w.toNat + y)), decide (256 ≤ w.toNat % 256 + y), s⟩ ∧
    (let l := memRead (ea ((b.toNat + x) % 256)) s
     let h := memRead (ea ((b.toNat + x + 1) % 256)) l.2
     resolve (.izx b) s = ⟨.mem (wordOf h.1 l.1), false, h.2⟩) ∧
    (let l := memRead (ea b.toNat) s
     let h := memRead (ea ((b.toNat + 1) % 256)) l.2
     resolve (.izy b) s = ⟨.mem (ea ((wordOf h.1 l.1).toNat + y)), decide (256 ≤ l.1.toNat + y), h.2⟩)

/-- R171: every instruction of the table goes on, and its cost is the base count, plus one where mode and operation both
ask, plus one or two for a taken branch; only the modes `abx`, `aby` and `izy` ever ask. -/
def Obligations.InstructionCost : Prop :=
  ∀ (i : Instr) (s : State),
    (∃ t, exec i s = .next t ∧
      t.cpu.cycles = i.baseCycles + (if i.mnemonic.extraOp then modeExtra i s else 0) +
        (if branchTaken i.mnemonic s.cpu.p then if page t.cpu.pc = page s.cpu.pc then 1 else 2 else 0)) ∧
    (modeExtra i s = 0 ∨ modeExtra i s = 1) ∧
    (modeExtra i s = 1 → (∃ w, i.operand = .abx w ∨ i.operand = .aby w) ∨ ∃ b, i.operand = .izy b)

/-! Frames over all instructions. -/

/-- The instruction half of the "written by" column of R25, and the registers: every instruction leaves every flag it is
not listed for, leaves A, X, Y and S alone but for its destination and the stack pointer of the stack instructions, and
PC but for the control transfers; inputs, outputs and parameters never change. -/
def Obligations.RegisterFrame : Prop :=
  ∀ (i : Instr) (s t : State), exec i s = .next t →
    (i.mnemonic.writesC = false → t.cpu.p.c = s.cpu.p.c) ∧
    (i.mnemonic.writesZN = false → t.cpu.p.z = s.cpu.p.z ∧ t.cpu.p.n = s.cpu.p.n) ∧
    (i.mnemonic.writesI = false → t.cpu.p.i = s.cpu.p.i) ∧
    (i.mnemonic.writesD = false → t.cpu.p.d = s.cpu.p.d) ∧
    (i.mnemonic.writesV = false → t.cpu.p.v = s.cpu.p.v) ∧
    (i.mnemonic.writesA = false → i.operand ≠ .acc → t.cpu.a = s.cpu.a) ∧
    (i.mnemonic.writesX = false → t.cpu.x = s.cpu.x) ∧ (i.mnemonic.writesY = false → t.cpu.y = s.cpu.y) ∧
    (i.mnemonic.writesS = false → t.cpu.s = s.cpu.s) ∧ (i.mnemonic.writesPc = false → t.cpu.pc = s.cpu.pc) ∧
    t.inputs = s.inputs ∧ t.outputs = s.outputs ∧ t.params = s.params

/-- An instruction that stores nothing changes, outside the CPU, only what a bus read can change: no byte of any memory,
no DMA register, no queued sound write, and of the PPU only the vertical-blank flag, the toggle, the read buffer and
`v`. An accumulator form changes nothing outside the CPU. -/
def Obligations.NonStoringFrame : Prop :=
  ∀ (i : Instr) (s t : State), exec i s = .next t →
    (i.mnemonic.stores = false → i.mnemonic.pushes = false → i.mnemonic.modifies = false →
      ReadFrame s t ∧ (∀ a, t.workByte a = s.workByte a) ∧ ∀ k, t.ppu.oamByte k = s.ppu.oamByte k) ∧
    (i.operand = .acc → t = { s with cpu := t.cpu })

/-- A storing instruction (STA, STX, STY, SAX and the read-modify-write instructions on memory) changes at most the byte
at the effective address its mode gives: every other byte of work memory, and with a concrete cartridge every other
address whose read has no side effect, reads as before. OAM changes only through the OAM-data port, the video memories
only through the Data port. -/
def Obligations.StoringFrame : Prop :=
  ∀ (i : Instr) (s t : State) (ea : Word), i.mnemonic.stores = true ∨ i.mnemonic.modifies = true →
    exec i s = .next t → (resolve i.operand s).place = .mem ea →
    (∀ a, a.toNat < 0x2000 → sameCell a ea = false → t.workByte a = s.workByte a) ∧
    (s.cart.oracle = false → ∀ a, plainAddr a = true → sameCell a ea = false → (memRead a t).1 = (memRead a s).1) ∧
    (¬ (0x2000 ≤ ea.toNat ∧ ea.toNat < 0x4000 ∧ ea.toNat % 8 = 4) → t.ppu.oam = s.ppu.oam) ∧
    (¬ (0x2000 ≤ ea.toNat ∧ ea.toNat < 0x4000 ∧ ea.toNat % 8 = 7) → t.ppu.palette = s.ppu.palette ∧
      t.ppu.nametable = s.ppu.nametable ∧ t.ppu.pattern = s.ppu.pattern) ∧
    t.ppu.frame = s.ppu.frame

/-- A pushing instruction (JSR, BRK, PHA, PHP) changes at most the stack bytes at S, S - 1 and S - 2, one for PHA and
PHP, two for JSR, three for BRK; every other byte of work memory, and with a concrete cartridge every other address
whose read has no side effect, reads as before, and the PPU's memories stay. -/
def Obligations.PushingFrame : Prop :=
  ∀ (i : Instr) (s t : State), i.mnemonic.pushes = true → exec i s = .next t →
    let outside := fun (a : Word) =>
      sameCell a (stackAddr s.cpu.s) = false ∧
      (i.mnemonic = .jsr ∨ i.mnemonic = .brk → sameCell a (stackAddr (s.cpu.s - 1)) = false) ∧
      (i.mnemonic = .brk → sameCell a (stackAddr (s.cpu.s - 2)) = false)
    (∀ a, a.toNat < 0x2000 → outside a → t.workByte a = s.workByte a) ∧
    (s.cart.oracle = false → ∀ a, plainAddr a = true → outside a → (memRead a t).1 = (memRead a s).1) ∧
    t.ppu.oam = s.ppu.oam ∧ t.ppu.palette = s.ppu.palette ∧ t.ppu.nametable = s.ppu.nametable ∧
    t.ppu.pattern = s.ppu.pattern ∧ t.ppu.frame = s.ppu.frame

/-- R26: the Decimal flag has no effect. From two states that differ in D alone, an instruction that does not push P
goes to states that differ in D at most. -/
def Obligations.DecimalHasNoEffect : Prop :=
  ∀ (i : Instr) (s t : State) (d : Bool), i.mnemonic ≠ .php → i.mnemonic ≠ .brk → exec i s = .next t →
    ∃ e, exec i { s with cpu := { s.cpu with p := { s.cpu.p with d := d } } }
      = .next { t with cpu := { t.cpu with p := { t.cpu.p with d := e } } }

/-! The CPU bus. -/

/-- R86 (with R81, R83): a CPU read asks the cartridge first; if it declines, work memory, a PPU port, a controller bit
or OPEN_BUS_VALUE answers. -/
def Obligations.BusReadMap : Prop :=
  ∀ (a : Word) (s : State),
    let r := s.cart.cpuRead a
    let u := { s with cart := r.2 }
    (∀ b, r.1 = some b → memRead a s = (b, u)) ∧
    (r.1 = none →
      (a.toNat ≤ 0x1FFF → memRead a s = (Memory.read Config.initWorkMemory s.orch.workRam (a.toNat % 0x800), u)) ∧
      (0x2000 ≤ a.toNat → a.toNat ≤ 0x3FFF → memRead a s = portRead (BitVec.ofNat 3 (a.toNat % 8)) u) ∧
      (a = 0x4016 → memRead a s = (BitVec.ofNat 8 (s.orch.shift0.toNat / 128),
        { u with orch := { s.orch with shift0 := BitVec.ofNat 8 (2 * s.orch.shift0.toNat) } })) ∧
      (a = 0x4017 → memRead a s = (BitVec.ofNat 8 (s.orch.shift1.toNat / 128),
        { u with orch := { s.orch with shift1 := BitVec.ofNat 8 (2 * s.orch.shift1.toNat) } })) ∧
      (0x4000 ≤ a.toNat → a ≠ 0x4016 → a ≠ 0x4017 → memRead a s = (0x00, u)))

/-- R87, R456: a CPU write asks the cartridge first; if it declines, work memory, a PPU port, the sound queue, the DMA
port or the controller latch takes it, and any other address ignores it. -/
def Obligations.BusWriteMap : Prop :=
  ∀ (a : Word) (v : Byte) (s : State),
    let r := s.cart.cpuWrite a v
    let u := { s with cart := r.2 }
    let sound := (0x4000 ≤ a.toNat ∧ a.toNat ≤ 0x4013) ∨ a = 0x4015 ∨ a = 0x4017
    (r.1 = true → memWrite a v s = u) ∧
    (r.1 = false →
      (a.toNat ≤ 0x1FFF → memWrite a v s =
        { u with orch := { s.orch with workRam := Memory.put s.orch.workRam (a.toNat % 0x800) v } }) ∧
      (0x2000 ≤ a.toNat → a.toNat ≤ 0x3FFF → memWrite a v s = portWrite (BitVec.ofNat 3 (a.toNat % 8)) v u) ∧
      (sound → memWrite a v s = { u with orch := { s.orch with soundQueue := s.orch.soundQueue ++ [(a, v)] } }) ∧
      (a = 0x4014 → memWrite a v s =
        { u with orch := { s.orch with dmaPage := v, dmaIndex := 0, dmaActive := true } }) ∧
      (a = 0x4016 → memWrite a v s =
        { u with orch := { s.orch with shift0 := s.inputs.controller0, shift1 := s.inputs.controller1 } }) ∧
      (0x4000 ≤ a.toNat → ¬ sound → a ≠ 0x4014 → a ≠ 0x4016 → memWrite a v s = u))

/-- R83: in the work-memory window a write is read back at every mirror of its address and nowhere else. -/
def Obligations.WorkMemoryMirrors : Prop :=
  ∀ (a b : Word) (v : Byte) (s : State), a.toNat < 0x2000 → b.toNat < 0x2000 → unclaimed a s → unclaimed b s →
    (memRead b (memWrite a v s)).1 = if a.toNat % 0x800 = b.toNat % 0x800 then v else (memRead b s).1

/-- The list of R95: a CPU read changes nothing in the block but the vertical-blank flag, the write toggle, the read
buffer, `v` and the controller shifters, and with a concrete cartridge a read outside the PPU and controller ports
changes nothing at all. -/
def Obligations.BusReadEffects : Prop :=
  ∀ (a : Word) (s : State), ReadFrame s (memRead a s).2 ∧ (memRead a s).2.cpu = s.cpu ∧
    (s.cart.oracle = false → plainAddr a = true → (memRead a s).2 = s)

/-- R90: after any write to 0x4016 the reads of 0x4016 give controller 0 bit by bit, most significant first, in bit 0 of
the byte, and 0 from the ninth on; those of 0x4017 give controller 1. -/
def Obligations.ControllerProtocol : Prop :=
  ∀ (d : Byte) (n k : Nat) (s : State), unclaimed 0x4016 s → unclaimed 0x4017 s → k < n →
    let t := memWrite 0x4016 d s
    let bit := fun (c : Byte) => if k < 8 then BitVec.ofNat 8 (c.toNat / 2 ^ (7 - k) % 2) else 0
    (controllerReads (memRead 0x4016) n t).1[k]? = some (bit s.inputs.controller0) ∧
    (controllerReads (memRead 0x4017) n t).1[k]? = some (bit s.inputs.controller1)

/-! The PPU bus and the ports. -/

/-- R100, R101, R104, R105, and R103 for a concrete cartridge: a PPU access uses the low 14 bits; below 0x3F00 it asks the
cartridge first and, if that declines, pattern or nametable memory takes it; from 0x3F00 up palette memory takes it. The
nametable byte depends on the cartridge's mirroring, given for a concrete cartridge. Palette memory stores all 8 bits; every
read of it is masked. That no cartridge is asked from 0x3F00 up is ruling D31 over the pseudocode of R100 and R101, the
model's reading (log entry 10). -/
def Obligations.PpuBusMap : Prop :=
  ∀ (addr : Word) (v : Byte) (s : State),
    let a : BitVec 14 := BitVec.ofNat 14 addr.toNat
    let i := a.toNat % 32
    let j := if i = 16 ∨ i = 20 ∨ i = 24 ∨ i = 28 then i - 16 else i
    (let r := s.cart.ppuRead a
     let u := { s with cart := r.2 }
     (a.toNat < 0x3F00 → ∀ b, r.1 = some b → ppuRead addr s = (b, u)) ∧
     (r.1 = none →
       (a.toNat ≤ 0x1FFF → ppuRead addr s = (Memory.read Config.initPattern s.ppu.pattern a.toNat, u)) ∧
       (0x2000 ≤ a.toNat → a.toNat ≤ 0x3EFF → ppuRead addr s =
         (Memory.read Config.initNametable s.ppu.nametable (ntIndex a r.2).1, { s with cart := (ntIndex a r.2).2 }))) ∧
     (0x3F00 ≤ a.toNat → ppuRead addr s =
       (Memory.read Config.initPalette s.ppu.palette j &&& (if s.ppu.mask.getLsbD 0 then 0x30 else 0x3F), s))) ∧
    (let r := s.cart.ppuWrite a v
     let u := { s with cart := r.2 }
     (a.toNat < 0x3F00 → r.1 = true → ppuWrite addr v s = u) ∧
     (r.1 = false →
       (a.toNat ≤ 0x1FFF → ppuWrite addr v s =
         { u with ppu := { s.ppu with pattern := Memory.put s.ppu.pattern a.toNat v } }) ∧
       (0x2000 ≤ a.toNat → a.toNat ≤ 0x3EFF → ppuWrite addr v s = { s with
         cart := (ntIndex a r.2).2
         ppu := { s.ppu with nametable := Memory.put s.ppu.nametable (ntIndex a r.2).1 v } })) ∧
     (0x3F00 ≤ a.toNat → ppuWrite addr v s =
       { s with ppu := { s.ppu with palette := Memory.put s.ppu.palette j v } })) ∧
    (s.cart.oracle = false →
      (s.cart.mirroring = .vertical → ntIndex a s.cart = (a.toNat % 2048, s.cart)) ∧
      (s.cart.mirroring = .horizontal → ntIndex a s.cart = (a.toNat / 2048 % 2 * 1024 + a.toNat % 1024, s.cart)) ∧
      (∀ t0 t1 t2 t3, s.cart.mirroring = .custom t0 t1 t2 t3 →
        ntIndex a s.cart = (([t0, t1, t2, t3].getD (a.toNat / 1024 % 4) false).toNat * 1024 + a.toNat % 1024, s.cart)))

/-- R342, R343, R344, R345, R346, R351: the Control, Mask, Status and OAM ports, and the accesses against a port's
direction. A Status read gives the three flags over the low five bits of the read buffer, and clears the vertical-blank
flag and the write toggle, nothing else. -/
def Obligations.SimplePorts : Prop :=
  ∀ (d : Byte) (s : State),
    let t := s.ppu.t.toNat
    portWrite 0 d s = { s with ppu := { s.ppu with
      ctrl := d, t := BitVec.ofNat 15 (t / 4096 * 4096 + d.toNat % 4 * 1024 + t % 1024) } } ∧
    portWrite 1 d s = { s with ppu := { s.ppu with mask := d } } ∧
    (portRead 2 s).1.toNat = 128 * s.ppu.vblank.toNat + 64 * s.ppu.spr0Hit.toNat + 32 * s.ppu.overflow.toNat
      + s.ppu.dataBuffer.toNat % 32 ∧
    (portRead 2 s).2 = { s with ppu := { s.ppu with vblank := false, w := false } } ∧
    portWrite 2 d s = s ∧
    portWrite 3 d s = { s with ppu := { s.ppu with oamAddr := d } } ∧
    portWrite 4 d s = { s with ppu := { s.ppu with
      oam := Memory.put s.ppu.oam s.ppu.oamAddr.toNat d, oamAddr := BitVec.ofNat 8 (s.ppu.oamAddr.toNat + 1) } } ∧
    portRead 4 s = (Memory.read Config.initOam s.ppu.oam s.ppu.oamAddr.toNat, s) ∧
    ∀ n : BitVec 3, n = 0 ∨ n = 1 ∨ n = 3 ∨ n = 5 ∨ n = 6 → portRead n s = (0x00, s)

/-- R347, R348: the Scroll and Address ports take two writes each on the shared toggle; only the second Address write
reaches `v`. -/
def Obligations.ScrollAddressPorts : Prop :=
  ∀ (d : Byte) (s : State),
    let t := s.ppu.t.toNat
    let n := d.toNat
    (s.ppu.w = false → portWrite 5 d s = { s with ppu := { s.ppu with
      fineX := BitVec.ofNat 3 n, t := BitVec.ofNat 15 (t / 32 * 32 + n / 8), w := true } }) ∧
    (s.ppu.w = true → portWrite 5 d s = { s with ppu := { s.ppu with
      t := BitVec.ofNat 15 (n % 8 * 4096 + t / 1024 % 4 * 1024 + n / 8 * 32 + t % 32), w := false } }) ∧
    (s.ppu.w = false → portWrite 6 d s = { s with ppu := { s.ppu with
      t := BitVec.ofNat 15 (n % 64 * 256 + t % 256), w := true } }) ∧
    (s.ppu.w = true → portWrite 6 d s = { s with ppu := { s.ppu with
      t := BitVec.ofNat 15 (t / 256 * 256 + n), v := BitVec.ofNat 15 (t / 256 * 256 + n), w := false } })

/-- R349, R350, R352: a Data read is delayed by one access except in palette memory, a Data write is not, and both add
the increment step to `v` modulo 2^15. -/
def Obligations.DataPort : Prop :=
  ∀ (d : Byte) (s : State),
    let v := s.ppu.v.toNat
    let next := BitVec.ofNat 15 (v + if s.ppu.ctrl.getLsbD 2 then 32 else 1)
    let r := ppuRead (BitVec.ofNat 16 v) s
    let t := ppuWrite (BitVec.ofNat 16 v) d s
    portRead 7 s = (if 0x3F00 ≤ v % 0x4000 then r.1 else s.ppu.dataBuffer,
      { r.2 with ppu := { s.ppu with dataBuffer := r.1, v := next } }) ∧
    portWrite 7 d s = { t with ppu := { t.ppu with v := next } }

/-- R353: a sequence of Scroll-port writes from a clear toggle, a Status read, and the same writes again give the scroll
registers the first sequence gave. -/
def Obligations.ToggleRoundTrip : Prop :=
  ∀ (ds : List Byte) (s : State), s.ppu.w = false →
    let p := scrollWrites ds s.ppu
    let q := scrollWrites ds (portRead 2 { s with ppu := p }).2.ppu
    q.t = p.t ∧ q.v = p.v ∧ q.fineX = p.fineX ∧ q.w = p.w

/-! The raster engine. -/

/-- R432 (with R382): the position after a PPU tick. -/
def Obligations.PositionAdvance : Prop :=
  ∀ (s : State),
    let rendering := s.ppu.mask.getLsbD 3 || s.ppu.mask.getLsbD 4
    let c := if s.ppu.scanline = 0 ∧ s.ppu.cycle = 0 ∧ s.ppu.oddFrame = true ∧ rendering = true then 1 else s.ppu.cycle
    let p := (ppuTick s).ppu
    (c < 340 → p.cycle = c + 1 ∧ p.scanline = s.ppu.scanline ∧ p.frameComplete = s.ppu.frameComplete ∧
      p.oddFrame = s.ppu.oddFrame) ∧
    (340 ≤ c → s.ppu.scanline < 260 → p.cycle = 0 ∧ p.scanline = s.ppu.scanline + 1 ∧
      p.frameComplete = s.ppu.frameComplete ∧ p.oddFrame = s.ppu.oddFrame) ∧
    (340 ≤ c → 260 ≤ s.ppu.scanline → p.cycle = 0 ∧ p.scanline = -1 ∧ p.frameComplete = true ∧
      p.oddFrame = !s.ppu.oddFrame)

/-- R436: from the start of the pre-render line a frame takes exactly 341 * 262 PPU ticks, one less on an odd frame with
rendering enabled; the frame-complete flag rises in the last of them and not before. -/
def Obligations.FrameLength : Prop :=
  ∀ (s : State), s.ppu.scanline = -1 → s.ppu.cycle = 0 → s.ppu.frameComplete = false →
    let rendering := s.ppu.mask.getLsbD 3 || s.ppu.mask.getLsbD 4
    let n := if s.ppu.oddFrame = true ∧ rendering = true then 341 * 262 - 1 else 341 * 262
    (∀ k, k < n → (ppuTicks k s).ppu.frameComplete = false) ∧
    (ppuTicks n s).ppu.frameComplete = true ∧ (ppuTicks n s).ppu.scanline = -1 ∧ (ppuTicks n s).ppu.cycle = 0 ∧
    (ppuTicks n s).ppu.oddFrame = !s.ppu.oddFrame

/-- R380, R382: what a PPU tick does at each position: which steps, in which order, and that every other position only
advances. On an odd frame with rendering enabled the tick at (0, 0) is that of (0, 1). -/
def Obligations.RasterSchedule : Prop :=
  ∀ (s : State),
    let skip := s.ppu.scanline = 0 ∧ s.ppu.cycle = 0 ∧ s.ppu.oddFrame = true ∧
      (s.ppu.mask.getLsbD 3 || s.ppu.mask.getLsbD 4) = true
    let sl := s.ppu.scanline
    let cy := s.ppu.cycle
    let goes := fun (t : State) => ppuTick s = { t with ppu := advance t.ppu }
    let on := fun (f : Ppu → Ppu) (t : State) => { t with ppu := f t.ppu }
    let fetch := fetchStep ((cy - 1) % 8)
    let shift := on shiftBackground s
    let both := on updateSprites shift
    let seen := fun (t : State) => if 0 ≤ sl then compose t else t
    let line := -1 ≤ sl ∧ sl ≤ 239
    (skip → ppuTick s = ppuTick { s with ppu := { s.ppu with cycle := 1 } }) ∧
    (line → ¬ skip → cy = 0 → goes s) ∧
    (line → cy = 1 → goes (seen (if sl = -1 then on preRenderClear s else s))) ∧
    (line → 2 ≤ cy → cy ≤ 255 → goes (seen (fetch both))) ∧
    (line → cy = 256 → goes (seen (on incrementY (on incrementX both)))) ∧
    (line → cy = 257 → goes (seen (
      let t := on transferX (on loadShifters (fetch both))
      if 0 ≤ sl then on evaluateSprites t else t))) ∧
    (line → cy = 260 → goes (scanlineEndHook s)) ∧
    (line → 258 ≤ cy → cy ≤ 320 → cy ≠ 260 →
      goes (if sl = -1 ∧ 280 ≤ cy ∧ cy < 305 then on transferY s else s)) ∧
    (line → 321 ≤ cy → cy ≤ 337 → goes (fetch shift)) ∧
    (line → cy = 338 → goes (fetchTileId s)) ∧ (line → cy = 339 → goes s) ∧
    (line → cy = 340 → goes (if 0 ≤ sl then fetchSprites (fetchTileId s) else fetchTileId s)) ∧
    (240 ≤ sl → goes (if sl = 241 ∧ cy = 1 then on vblankSet s else s))

/-- R430, R386, R354 (that no bus access changes the NMI request is R354's own inference, marked [derived]; that the
pre-render clear empties the foreground pipeline is decision D16): a PPU tick sets the vertical-blank flag at (241, 1) and clears all three status flags and the
foreground pipeline at (-1, 1); elsewhere the vertical-blank flag stays, and overflow and sprite-zero hit are never
cleared. The NMI request line is raised by the tick at (241, 1) with NMI-enable set and by nothing else: no other tick,
no bus access and no instruction changes it. -/
def Obligations.StatusFlagTiming : Prop :=
  (∀ (s : State),
    let p := (ppuTick s).ppu
    let start := s.ppu.scanline = 241 ∧ s.ppu.cycle = 1
    let clear := s.ppu.scanline = -1 ∧ s.ppu.cycle = 1
    (start → p.vblank = true) ∧
    (clear → p.vblank = false ∧ p.overflow = false ∧ p.spr0Hit = false ∧ p.spriteCount = 0 ∧ p.spr0Possible = false ∧
      p.spr0Rendered = false ∧ p.slots = s.ppu.slots.map fun q => { q with lo := 0, hi := 0 }) ∧
    (¬ start → ¬ clear → p.vblank = s.ppu.vblank) ∧
    (¬ clear → (s.ppu.overflow = true → p.overflow = true) ∧ (s.ppu.spr0Hit = true → p.spr0Hit = true)) ∧
    p.nmiRequest = (s.ppu.nmiRequest || (decide start && s.ppu.ctrl.getLsbD 7))) ∧
  (∀ (a : Word) (s : State), (memRead a s).2.ppu.nmiRequest = s.ppu.nmiRequest) ∧
  (∀ (a : Word) (v : Byte) (s : State), (memWrite a v s).ppu.nmiRequest = s.ppu.nmiRequest) ∧
  ∀ (i : Instr) (s t : State), exec i s = .next t → t.ppu.nmiRequest = s.ppu.nmiRequest

/-- R408, R410: sprite evaluation selects the first eight sprites in range, in OAM order, and sets overflow exactly when
a ninth is in range; the other slots hold 0xFF. -/
def Obligations.SpriteEvaluation : Prop :=
  ∀ (p : Ppu),
    let h : Int := if p.ctrl.getLsbD 5 then 16 else 8
    let inRange := fun (n : Nat) => decide (0 ≤ p.scanline - (p.oamByte (4 * n)).toNat ∧
      p.scanline - (p.oamByte (4 * n)).toNat < h)
    let hits := (List.range 64).filter inRange
    let slot := fun (n : Nat) => ({ y := p.oamByte (4 * n), tile := p.oamByte (4 * n + 1), attr := p.oamByte (4 * n + 2)
                                    x := p.oamByte (4 * n + 3), lo := 0, hi := 0 } : SpriteSlot)
    let empty : SpriteSlot := { y := 0xFF, tile := 0xFF, attr := 0xFF, x := 0xFF, lo := 0, hi := 0 }
    evaluateSprites p = { p with
      slots := (hits.take 8).map slot ++ List.replicate (8 - min 8 hits.length) empty
      spriteCount := min 8 hits.length
      spr0Possible := inRange 0
      overflow := p.overflow || decide (9 ≤ hits.length) }

/-- The movements of R395, R397, R398, R400: the four movements of `v`, guarded by rendering, with the 30-row and the
32-row wrap. -/
def Obligations.ScrollMovements : Prop :=
  ∀ (p : Ppu),
    let v := p.v.toNat
    let t := p.t.toNat
    let on := (p.mask.getLsbD 3 || p.mask.getLsbD 4) = true
    let row := v / 32 % 32
    let goes := fun (q : Ppu) (n : Nat) => q = { p with v := BitVec.ofNat 15 n }
    (¬ on → incrementX p = p ∧ incrementY p = p ∧ transferX p = p ∧ transferY p = p) ∧
    (on → goes (transferX p) (v / 2048 * 2048 + t / 1024 % 2 * 1024 + v / 32 % 32 * 32 + t % 32)) ∧
    (on → goes (transferY p) (t / 2048 * 2048 + v / 1024 % 2 * 1024 + t / 32 % 32 * 32 + v % 32)) ∧
    (on → v % 32 < 31 → goes (incrementX p) (v + 1)) ∧
    (on → v % 32 = 31 → goes (incrementX p) (v / 2048 * 2048 + (1 - v / 1024 % 2) * 1024 + v / 32 % 32 * 32)) ∧
    (on → v / 4096 < 7 → goes (incrementY p) (v + 4096)) ∧
    (on → v / 4096 = 7 → row = 29 → goes (incrementY p) ((1 - v / 2048 % 2) * 2048 + v / 1024 % 2 * 1024 + v % 32)) ∧
    (on → v / 4096 = 7 → row = 31 → goes (incrementY p) (v % 4096 / 1024 * 1024 + v % 32)) ∧
    (on → v / 4096 = 7 → row ≠ 29 → row ≠ 31 → goes (incrementY p) (v % 4096 + 32))

/-- R388, R391 to R394, R396: the background shift, and the eight fetch steps: what they load, and the addresses they
read, for `v` split into its fields. -/
def Obligations.BackgroundFetches : Prop :=
  ∀ (s : State),
    let v := s.ppu.v.toNat
    let word := fun (n : Nat) => BitVec.ofNat 16 n
    let half := fun (r : BitVec 16) (n : Nat) => word (r.toNat / 256 * 256 + n)
    let all := fun (b : Bool) => if b then 0xFF else 0x00
    let name := ppuRead (word (0x2000 + v % 4096)) s
    let attr := ppuRead (word (0x23C0 + v / 1024 % 4 * 1024 + v / 128 % 8 * 8 + v / 4 % 8)) s
    let table := (s.ppu.ctrl.getLsbD 4).toNat * 4096 + s.ppu.nextId.toNat * 16 + v / 4096
    let low := ppuRead (word table) s
    let high := ppuRead (word (table + 8)) s
    shiftBackground s.ppu = { s.ppu with
      bgPatLo := word (2 * s.ppu.bgPatLo.toNat), bgPatHi := word (2 * s.ppu.bgPatHi.toNat)
      bgAttLo := word (2 * s.ppu.bgAttLo.toNat), bgAttHi := word (2 * s.ppu.bgAttHi.toNat) } ∧
    fetchStep 0 s = { name.2 with ppu := { s.ppu with
      bgPatLo := half s.ppu.bgPatLo s.ppu.nextLo.toNat, bgPatHi := half s.ppu.bgPatHi s.ppu.nextHi.toNat
      bgAttLo := half s.ppu.bgAttLo (all (s.ppu.nextAttr.getLsbD 0))
      bgAttHi := half s.ppu.bgAttHi (all (s.ppu.nextAttr.getLsbD 1))
      nextId := name.1 } } ∧
    fetchStep 2 s = { attr.2 with ppu := { s.ppu with
      nextAttr := BitVec.ofNat 2 (attr.1.toNat / 4 ^ (v / 64 % 2 * 2 + v / 2 % 2)) } } ∧
    fetchStep 4 s = { low.2 with ppu := { s.ppu with nextLo := low.1 } } ∧
    fetchStep 6 s = { high.2 with ppu := { s.ppu with nextHi := high.1 } } ∧
    fetchStep 7 s = { s with ppu := incrementX s.ppu } ∧
    ∀ k, k = 1 ∨ k = 3 ∨ k = 5 → fetchStep k s = s

/-- R404, R412, R413: a slot in use counts its X down to 0 and from then on shifts its planes. The pattern address of a
selected sprite's row, 8 by 8 and 8 by 16, with vertical flip. The fetch takes the slots in use in order, reads each one's low
plane there and its high plane 8 above, on the state the reads before left, and loads both, reversed when bit 6 of the
attributes is set; it changes no other slot and nothing else of the PPU. The reversal of a plane. An 8 by 8 row above 7
without flip is R412's formula; with flip the address is free (log entry 12) and not stated. -/
def Obligations.SpriteFetch : Prop :=
  (∀ (p : Ppu),
    let moved := fun (q : SpriteSlot) => if 0 < q.x.toNat then { q with x := q.x - 1 } else
      { q with lo := BitVec.ofNat 8 (2 * q.lo.toNat), hi := BitVec.ofNat 8 (2 * q.hi.toNat) }
    updateSprites p = { p with slots := (updateSprites p).slots } ∧
    ∀ i : Nat, (updateSprites p).slots[i]? = if i < p.spriteCount then p.slots[i]?.map moved else p.slots[i]?) ∧
  (∀ (p : Ppu) (q : SpriteSlot) (row : Nat), p.scanline - q.y.toNat = row →
    let flip := q.attr.getLsbD 7
    let word := fun (n : Nat) => BitVec.ofNat 16 n
    (p.ctrl.getLsbD 5 = false → row < (if flip then 8 else 16) → spriteAddr p q =
      word ((p.ctrl.getLsbD 3).toNat * 4096 + q.tile.toNat * 16 + if flip then 7 - row else row)) ∧
    (p.ctrl.getLsbD 5 = true → row < 16 →
      let half := if flip then 1 - row / 8 else row / 8
      spriteAddr p q = word (q.tile.toNat % 2 * 4096 + (q.tile.toNat / 2 * 2 + half) * 16 +
        if flip then 7 - row % 8 else row % 8))) ∧
  (∀ (s : State),
    ∃ at_ : Nat → State, at_ 0 = s ∧
      fetchSprites s = { at_ s.ppu.spriteCount with ppu := { s.ppu with slots := (fetchSprites s).ppu.slots } } ∧
      (∀ i, s.ppu.spriteCount ≤ i ∨ s.ppu.slots[i]? = none → (fetchSprites s).ppu.slots[i]? = s.ppu.slots[i]?) ∧
      ∀ i q, i < s.ppu.spriteCount → s.ppu.slots[i]? = some q →
        let low := ppuRead (spriteAddr s.ppu q) (at_ i)
        let high := ppuRead (spriteAddr s.ppu q + 8) low.2
        let plane := fun (b : Byte) => if q.attr.getLsbD 6 then flipByte b else b
        at_ (i + 1) = high.2 ∧
        (fetchSprites s).ppu.slots[i]? = some { q with lo := plane low.1, hi := plane high.1 }) ∧
  ∀ (b : Byte) (i : Nat), i < 8 → (flipByte b).getLsbD i = b.getLsbD (7 - i)

/-- R418: the foreground pixel is that of the first slot whose X counter is 0 and whose pixel is opaque; with sprites
hidden or clipped, or no such slot, it is transparent. -/
def Obligations.ForegroundPixel : Prop :=
  ∀ (p : Ppu), p.spriteCount ≤ p.slots.length →
    let shown := p.mask.getLsbD 4 = true ∧ (p.mask.getLsbD 2 = true ∨ 9 ≤ p.cycle)
    let px := fun (q : SpriteSlot) => 2 * (q.hi.getLsbD 7).toNat + (q.lo.getLsbD 7).toNat
    let opaqueAt := fun (i : Nat) => ∃ q, p.slots[i]? = some q ∧ q.x = 0 ∧ px q ≠ 0
    (∀ i q, shown → i < p.spriteCount → p.slots[i]? = some q → opaqueAt i → (∀ j, j < i → ¬ opaqueAt j) →
      foregroundPixel p = { pixel := { px := BitVec.ofNat 2 (px q), pal := BitVec.ofNat 3 (4 + q.attr.toNat % 4) }
                            front := !q.attr.getLsbD 5, zero := decide (i = 0) }) ∧
    (¬ shown ∨ (∀ j, j < p.spriteCount → ¬ opaqueAt j) →
      foregroundPixel p = { pixel := { px := 0, pal := 0 }, front := false, zero := false })

/-- R416, R420, R424, R426: composing a pixel at a visible position. The background pixel is the bit fine X selects; the
composite rule picks the colour, whose masked palette byte is, up to cycle 256, put in the frame; sprite-zero hit is set
exactly when both are opaque, both are shown and the foreground pixel is sprite zero's. That the colour is read from palette
memory with no cartridge asked, so that it has 6 bits, is ruling D31 over the pseudocode of R100, the model's reading (log
entry 10). -/
def Obligations.ComposePixel : Prop :=
  ∀ (s : State), 0 ≤ s.ppu.scanline → s.ppu.scanline ≤ 239 → 1 ≤ s.ppu.cycle → s.ppu.cycle ≤ 257 →
    let p := s.ppu
    let k := 15 - p.fineX.toNat
    let fg := foregroundPixel p
    let shown := p.mask.getLsbD 3 = true ∧ (p.mask.getLsbD 1 = true ∨ 9 ≤ p.cycle)
    let bit := fun (r : BitVec 16) => (r.getLsbD k).toNat
    let bgPx := if shown then 2 * bit p.bgPatHi + bit p.bgPatLo else 0
    let bgPal := if shown then 2 * bit p.bgAttHi + bit p.bgAttLo else 0
    let fgPx := fg.pixel.px.toNat
    let sprite := fgPx ≠ 0 ∧ (bgPx = 0 ∨ fg.front = true)
    let entry := if bgPx = 0 ∧ fgPx = 0 then 0 else if sprite then fg.pixel.pal.toNat * 4 + fgPx else bgPal * 4 + bgPx
    let hit := bgPx ≠ 0 ∧ fgPx ≠ 0 ∧ p.spr0Possible = true ∧ fg.zero = true ∧ p.mask.getLsbD 3 = true ∧
      p.mask.getLsbD 4 = true
    let c := Memory.read Config.initPalette p.palette entry &&& (if p.mask.getLsbD 0 then 0x30 else 0x3F)
    compose s = { s with ppu := { p with
      spr0Rendered := fg.zero
      spr0Hit := p.spr0Hit || decide hit
      frame := if p.cycle ≤ 256 then
          Memory.put p.frame (p.scanline.toNat * 256 + (p.cycle - 1)) (BitVec.ofNat 6 c.toNat)
        else p.frame } }

/-- The consequences of R440, and R434 with decision D22: with rendering disabled a PPU tick leaves `v` alone, sets no
sprite-zero hit and gives no scanline-end pulse; with rendering enabled the tick of cycle 260 of a scanline up to 239 gives
one pulse, and no other tick does. The pulse is all that the hook changes. -/
def Obligations.RenderingDisabled : Prop :=
  ∀ (s : State),
    let rendering := s.ppu.mask.getLsbD 3 || s.ppu.mask.getLsbD 4
    let pulsed := { s.outputs with scanlineEnd := true }
    (rendering = false →
      (ppuTick s).ppu.v = s.ppu.v ∧ ((ppuTick s).ppu.spr0Hit = true → s.ppu.spr0Hit = true)) ∧
    ((ppuTick s).outputs =
      if rendering = true ∧ s.ppu.scanline ≤ 239 ∧ s.ppu.cycle = 260 then pulsed else s.outputs) ∧
    scanlineEndHook s = if rendering = true then { s with outputs := pulsed } else s

/-! The system tick, DMA, interrupts and reset. -/

/-- R170: when no cycle is owed the bytes at PC are read in ascending order, PC goes past them, and the step is `exec`
of the instruction they decode to; the PPU's tick comes before it, the spent cycle, the sound slot and the end of the
system tick after it. -/
def Obligations.StepRunsDecodedInstruction : Prop :=
  ∀ (s : State) (i : Instr), s.inputs.reset = false → s.orch.counter % 3 = 0 → s.orch.dmaActive = false →
    s.cpu.cycles = 0 → i.wellFormed = true →
    let u := tickBegin s
    let n := instrLength (memRead u.cpu.pc u).1
    let r := readBytes n u.cpu.pc u
    decode r.1 = .ok (i, []) →
    ∃ t, exec i (r.2.setPc (u.cpu.pc + BitVec.ofNat 16 n)) = .next t ∧
      step s = .next (tickEnd (soundSlot { t with cpu := { t.cpu with cycles := t.cpu.cycles - 1 } }))

/-- R450, R451, R452: in a tick that is no CPU-rate slot neither the CPU nor the DMA engine acts; in a CPU-rate slot of
a transfer the DMA engine acts in place of the CPU; in any other one that owes cycles the CPU only spends one. While a
transfer is in flight and no interrupt is taken, a step changes no CPU register and owes as many cycles as before. -/
def Obligations.TickPhases : Prop :=
  ∀ (s : State), s.inputs.reset = false →
    let u := tickBegin s
    (s.orch.counter % 3 ≠ 0 → step s = .next (tickEnd u)) ∧
    (s.orch.counter % 3 = 0 → s.orch.dmaActive = true → step s = .next (tickEnd (soundSlot (dmaSlot u)))) ∧
    (s.orch.counter % 3 = 0 → s.orch.dmaActive = false → 0 < s.cpu.cycles →
      step s = .next (tickEnd (soundSlot { u with cpu := { u.cpu with cycles := u.cpu.cycles - 1 } }))) ∧
    (∀ t, step s = .next t → t.orch.counter = s.orch.counter + 1) ∧
    (s.orch.dmaActive = true → u.ppu.nmiRequest = false → s.cart.oracle = false → s.cart.irq = false →
      ∃ t, step s = .next t ∧ t.cpu = s.cpu)

/-- R457 to R461: a DMA slot. Waiting for alignment it transfers nothing and stops waiting on an odd count; aligned it
reads the source byte on an even count and on an odd one writes OAM, steps the index and at its wrap ends the transfer.
-/
def Obligations.DmaSlotRule : Prop :=
  ∀ (s : State),
    let o := s.orch
    let r := memRead (wordOf o.dmaPage o.dmaIndex) s
    let last := o.dmaIndex.toNat = 255
    (o.dmaAlign = true → o.counter % 2 = 1 → dmaSlot s = { s with orch := { o with dmaAlign := false } }) ∧
    (o.dmaAlign = true → o.counter % 2 = 0 → dmaSlot s = s) ∧
    (o.dmaAlign = false → o.counter % 2 = 0 → dmaSlot s = { r.2 with orch := { r.2.orch with dmaData := r.1 } }) ∧
    (o.dmaAlign = false → o.counter % 2 = 1 → dmaSlot s = { s with
      ppu := { s.ppu with oam := Memory.put s.ppu.oam o.dmaIndex.toNat o.dmaData }
      orch := { o with
        dmaIndex := BitVec.ofNat 8 (o.dmaIndex.toNat + 1)
        dmaActive := if last then false else o.dmaActive
        dmaAlign := if last then true else o.dmaAlign } })

/-- R463: a transfer from a page of work memory, from its first read slot on, takes 512 slots, after which OAM holds the
256 bytes of the page; `oam_addr` and every CPU register are as before, and no transfer is in flight. -/
def Obligations.DmaCopiesPage : Prop :=
  ∀ (s : State), s.orch.dmaActive = true → s.orch.dmaAlign = false → s.orch.dmaIndex = 0 → s.orch.counter % 2 = 0 →
    s.orch.dmaPage.toNat < 0x20 → (∀ k : Byte, unclaimed (wordOf s.orch.dmaPage k) s) →
    let t := dmaSlots 512 s
    (∀ k : Byte, t.ppu.oamByte k.toNat = (memRead (wordOf s.orch.dmaPage k) s).1) ∧
    t.orch.dmaActive = false ∧ t.orch.dmaAlign = true ∧ t.ppu.oamAddr = s.ppu.oamAddr ∧ t.cpu = s.cpu ∧
    t.orch.counter = s.orch.counter + 3 * 512 ∧ ∀ n, n < 512 → (dmaSlots n s).orch.dmaActive = true

/-- R494, R496, R497, R503: the interrupt sequences. NMI, and IRQ when Interrupt-disable is clear, push PC high, PC low
and P with Break clear and Unused set, set Interrupt-disable, load PC from their vector and owe their cycles; IRQ does
nothing when Interrupt-disable is set. -/
def Obligations.InterruptSequences : Prop :=
  ∀ (s : State),
    let t := memWrite (stackAddr s.cpu.s) (hi s.cpu.pc) s
    let u := memWrite (stackAddr (s.cpu.s - 1)) (lo s.cpu.pc) t
    let w := memWrite (stackAddr (s.cpu.s - 2)) ((s.cpu.p.toByte &&& 0xEF) ||| 0x20) u
    let enter := fun (vector : Word) (cost : Nat) =>
      let l := memRead vector w
      let h := memRead (vector + 1) l.2
      { h.2 with cpu := { s.cpu with
        s := s.cpu.s - 3, p := { s.cpu.p with i := true }, pc := wordOf h.1 l.1, cycles := cost } }
    nmi s = enter 0xFFFA s.params.nmiCycles ∧
    (s.cpu.p.i = false → irq s = enter 0xFFFE s.params.irqCycles) ∧ (s.cpu.p.i = true → irq s = s)

/-- R464, R465, R466: the interrupt phase. A request is cleared when it is taken; a mapper request is cleared whether or
not it is honoured; when both stand, NMI is taken and the IRQ is lost. -/
def Obligations.InterruptRouting : Prop :=
  ∀ (s : State), s.cart.oracle = false →
    let taken := nmi { s with ppu := { s.ppu with nmiRequest := false } }
    let cleared := fun (u : State) =>
      { u with cart := { u.cart with irq := false }, outputs := { u.outputs with irqClear := true } }
    (s.ppu.nmiRequest = false → s.cart.irq = false → routeIrq (routeNmi s) = s) ∧
    (s.ppu.nmiRequest = true → s.cart.irq = false → routeIrq (routeNmi s) = taken) ∧
    (s.ppu.nmiRequest = false → s.cart.irq = true → routeIrq (routeNmi s) = irq (cleared s)) ∧
    (s.ppu.nmiRequest = true → s.cart.irq = true → routeIrq (routeNmi s) = cleared taken)

/-- R506, and R252 after R251: where the cartridge leaves the stack to work memory, RTI right after an interrupt
restores every CPU register, P and PC included, and RTS right after JSR goes to the instruction after the JSR with S as
it was. -/
def Obligations.TrapThenReturn : Prop :=
  ∀ (w : Word) (s : State), (∀ k : Byte, unclaimed (stackAddr k) s) →
    (trapReturn (interruptEntry w s)).cpu = s.cpu ∧
    ∃ t u, exec (.jsr w) s = .next t ∧ exec .rts t = .next u ∧ u.cpu = { s.cpu with cycles := 6 }

/-- R495, R530, R531, with the values of R60: a waiting reset event is taken. It puts PPU and ORCH at their reset values,
leaves work memory, OAM, the video memories, the frame and the parameters as they are, and sets A = X = Y = 0, S = 0xFD, P = 0x24, PC from 0xFFFC and 0xFFFD, and RESET_CYCLES. The
model's choices: the event is taken in place of a system tick and is then spent (log entry 7), the outputs are withdrawn (log
entry 8), and the cartridge stands as it was (log entry 11). -/
def Obligations.ResetSequence : Prop :=
  ∀ (s : State), s.inputs.reset = true →
    let p := s.ppu
    let u := { s with
      ppu := Ppu.resetWith p.oam p.nametable p.palette p.pattern p.frame
      orch := Orch.resetWith s.orch.workRam
      inputs := { s.inputs with reset := false }
      outputs := Outputs.none }
    let l := memRead 0xFFFC u
    let h := memRead 0xFFFD l.2
    ∃ f : Flags, f.toByte = 0x24 ∧ step s = .next { h.2 with cpu := {
      a := 0, x := 0, y := 0, s := 0xFD, p := f, pc := wordOf h.1 l.1, cycles := s.params.resetCycles } }

/-- R532, R60: the machine right after reset, field by field. The model's choices: no memory lists a byte, so that each
byte is a free value (log entry 2), the empty cartridge slot, and so PC = 0 (3 and 19), the parameter values (5 and 6), the
reset event not waiting (7), no output pulse (8) and the controller snapshots (18). -/
def Obligations.ResetValues : Prop :=
  let s := State.reset
  (s.cpu.a = 0 ∧ s.cpu.x = 0 ∧ s.cpu.y = 0 ∧ s.cpu.s = 0xFD ∧ s.cpu.p.toByte = 0x24 ∧ s.cpu.pc = 0x0000 ∧
    s.cpu.cycles = s.params.resetCycles) ∧
  (s.ppu.ctrl = 0 ∧ s.ppu.mask = 0 ∧ s.ppu.overflow = false ∧ s.ppu.spr0Hit = false ∧ s.ppu.vblank = false ∧ s.ppu.v = 0 ∧
    s.ppu.t = 0 ∧ s.ppu.fineX = 0 ∧ s.ppu.w = false ∧ s.ppu.dataBuffer = 0 ∧ s.ppu.oamAddr = 0 ∧ s.ppu.nextId = 0 ∧
    s.ppu.nextAttr = 0 ∧ s.ppu.nextLo = 0 ∧ s.ppu.nextHi = 0 ∧ s.ppu.bgPatLo = 0 ∧ s.ppu.bgPatHi = 0 ∧
    s.ppu.bgAttLo = 0 ∧ s.ppu.bgAttHi = 0 ∧ s.ppu.spriteCount = 0 ∧ s.ppu.spr0Possible = false ∧
    s.ppu.spr0Rendered = false ∧ s.ppu.scanline = -1 ∧ s.ppu.cycle = 0 ∧ s.ppu.oddFrame = false ∧
    s.ppu.frameComplete = false ∧ s.ppu.nmiRequest = false) ∧
  (s.ppu.slots.length = 8 ∧
    ∀ q ∈ s.ppu.slots, q.y = 0xFF ∧ q.tile = 0xFF ∧ q.attr = 0xFF ∧ q.x = 0xFF ∧ q.lo = 0 ∧ q.hi = 0) ∧
  (s.orch.counter = 0 ∧ s.orch.dmaPage = 0 ∧ s.orch.dmaIndex = 0 ∧ s.orch.dmaData = 0 ∧ s.orch.dmaActive = false ∧
    s.orch.dmaAlign = true ∧ s.orch.shift0 = 0 ∧ s.orch.shift1 = 0 ∧ s.orch.soundQueue = [] ∧ s.orch.audioTime = 0) ∧
  (s.orch.workRam = [] ∧ s.ppu.oam = [] ∧ s.ppu.nametable = [] ∧ s.ppu.palette = [] ∧ s.ppu.pattern = [] ∧
    s.ppu.frame = []) ∧
  (s.cart.oracle = false ∧ s.cart.asks = 0 ∧ s.cart.cpuChips = [] ∧ s.cart.ppuChips = [] ∧
    s.cart.mirroring = .vertical ∧ s.cart.irq = false) ∧
  (s.inputs.reset = false ∧ s.inputs.controller0 = 0x00 ∧ s.inputs.controller1 = 0x00) ∧
  (s.outputs.scanlineEnd = false ∧ s.outputs.irqClear = false ∧ s.outputs.soundClock = false ∧
    s.outputs.soundWrites = [] ∧ s.outputs.sample = none) ∧
  (s.params.resetCycles = 8 ∧ s.params.irqCycles = 7 ∧ s.params.nmiCycles = 8 ∧ s.params.graphicsClockHz = 5369318)

/-- R470, R472: the sound slot delivers the whole queue, oldest first, with one clock pulse; audio time grows by one
graphics cycle a tick, and at 1/44100 s the threshold is taken off and a sample is due. -/
def Obligations.SoundAndAudio : Prop :=
  ∀ (s : State),
    let a := s.orch.audioTime + 1 / s.params.graphicsClockHz
    soundSlot s = { s with
      orch := { s.orch with soundQueue := [] }
      outputs := { s.outputs with soundWrites := s.orch.soundQueue, soundClock := true } } ∧
    (a < 1 / 44100 → (audioTime s).orch.audioTime = a ∧ (audioTime s).outputs.sample = none) ∧
    (1 / 44100 ≤ a → (audioTime s).orch.audioTime = a - 1 / 44100 ∧ (audioTime s).outputs.sample.isSome = true) ∧
    (audioTime s).cpu = s.cpu ∧ (audioTime s).ppu = s.ppu ∧ (audioTime s).orch.soundQueue = s.orch.soundQueue

/-! Encoding. -/

/-- R140, R144: decoding the bytes of an instruction gives it back with all its operand bits and leaves what follows. -/
def Obligations.DecodeEncode : Prop :=
  ∀ (i : Instr) (rest : List Byte), decode (encode i ++ rest) = .ok (i, rest)

/-- R140, R144, R146: whatever is decoded was encoded so, every opcode value begins an instruction, and only a sequence
that ends too soon is rejected. -/
def Obligations.EncodeDecode : Prop :=
  (∀ (bytes rest : List Byte) (i : Instr), decode bytes = .ok (i, rest) → bytes = encode i ++ rest) ∧
  ∀ (op b c : Byte) (rest : List Byte), ∃ i r, decode (op :: b :: c :: rest) = .ok (i, r)

/-- A few words written out from the encoding tables of files 41 to 46, one of each family. -/
def Obligations.DecodeSomeWords : Prop :=
  decode [0xA1, 0x12] = .ok (.ldaIzx 0x12, []) ∧ decode [0x9D, 0x34, 0x12] = .ok (.staAbx 0x1234, []) ∧
  decode [0xAA] = .ok (.tax, []) ∧ decode [0x7D, 0x20, 0x80] = .ok (.adcAbx 0x8020, []) ∧
  decode [0xE9, 0xF0] = .ok (.sbcImm 0xF0, []) ∧ decode [0x24, 0x10] = .ok (.bitZp 0x10, []) ∧
  decode [0x2A] = .ok (.rolAcc, []) ∧ decode [0x56, 0x10] = .ok (.lsrZpx 0x10, []) ∧
  decode [0x6C, 0xFF, 0x02] = .ok (.jmpInd 0x02FF, []) ∧ decode [0xD0, 0xFB] = .ok (.bne 0xFB, []) ∧
  decode [0x00] = .ok (.brk, []) ∧ decode [0x28] = .ok (.plp, []) ∧ decode [0xF8] = .ok (.sed, []) ∧
  decode [0xB7, 0x10] = .ok (.laxZpy 0x10, []) ∧ decode [0xCB, 0x10] = .ok (.axs 0x10, []) ∧
  decode [0xEB, 0x03] = .ok (.sbcImmEB 0x03, []) ∧ decode [0x92] = .ok (.jam92, []) ∧
  decode [0x9B, 0x00, 0x02] = .ok (.tas 0x0200, [])

/-! The whole machine. -/

/-- R490: the block raises no fault: from every state a step answers a next state. -/
def Obligations.NoFault : Prop := ∀ s : State, ∃ t, step s = .next t

/-- The invariant holds right after reset. -/
def Obligations.ResetHasInvariant : Prop := State.reset.Inv

/-- Every step keeps the invariant: canonical memories inside their sizes, eight sprite slots of which at most eight are
valid, a position inside the frame (R44), the alignment flag set when no transfer is in flight (R456), an empty sound
queue (R470), and at most the largest cost owed (R27). -/
def Obligations.StepKeepsInvariant : Prop := ∀ s t : State, s.Inv → step s = .next t → t.Inv
end

