-- ==== Sys2Proof/Laws/Memory.lean ====
section
/-! SUPPORT. The laws of `Memory`: a read after a write, and every write keeps the canonical form. -/

namespace Sys2Proof.Machine

variable {n : Nat}

/-- A value just listed is found. -/
@[simp] theorem Memory.lookup_put_same (m : Memory n) (a : Nat) (v : BitVec n) :
    Memory.lookup (Memory.put m a v) a = some v := by
  induction m with
  | nil => simp [Memory.put, Memory.lookup]
  | cons c rest ih =>
    obtain ⟨k, w⟩ := c
    simp only [Memory.put]
    split
    · simp [Memory.lookup]
    · split
      · simp [Memory.lookup]
      · simp [Memory.lookup, *]

/-- Listing a value leaves every other address alone. -/
theorem Memory.lookup_put_ne (m : Memory n) {a b : Nat} (v : BitVec n) (h : b ≠ a) :
    Memory.lookup (Memory.put m a v) b = Memory.lookup m b := by
  induction m with
  | nil => simp [Memory.put, Memory.lookup, h]
  | cons c rest ih =>
    obtain ⟨k, w⟩ := c
    simp only [Memory.put]
    split
    · simp [Memory.lookup, h]
    · split
      · rename_i h2; subst h2; simp [Memory.lookup, h]
      · simp only [Memory.lookup, ih]

/-- A read after a write. -/
theorem Memory.read_put (blank : Nat → BitVec n) (m : Memory n) (a b : Nat) (v : BitVec n) :
    Memory.read blank (Memory.put m a v) b = if b = a then v else Memory.read blank m b := by
  by_cases h : b = a
  · subst h; simp [Memory.read]
  · simp [Memory.read, Memory.lookup_put_ne m v h, h]

@[simp] theorem Memory.read_put_same (blank : Nat → BitVec n) (m : Memory n) (a : Nat) (v : BitVec n) :
    Memory.read blank (Memory.put m a v) a = v := by simp [Memory.read_put]

theorem Memory.read_put_ne (blank : Nat → BitVec n) (m : Memory n) {a b : Nat} (v : BitVec n) (h : b ≠ a) :
    Memory.read blank (Memory.put m a v) b = Memory.read blank m b := by simp [Memory.read_put, h]

/-- Addresses that rise from `b` are all above `b`, so `b` and what lies below are not listed. -/
theorem Memory.lookup_of_rising {m : Memory n} {b a : Nat} (h : Memory.risingFrom (some b) m = true) (ha : a ≤ b) :
    Memory.lookup m a = none := by
  induction m generalizing b with
  | nil => rfl
  | cons c rest ih =>
    obtain ⟨k, w⟩ := c
    simp only [Memory.risingFrom, Bool.and_eq_true, decide_eq_true_eq] at h
    have : a ≠ k := by omega
    simp [Memory.lookup, this, ih h.2 (by omega)]

theorem Memory.rising_weaken {m : Memory n} {b c : Nat} (h : Memory.risingFrom (some b) m = true) (hc : c ≤ b) :
    Memory.risingFrom (some c) m = true := by
  cases m with
  | nil => rfl
  | cons x rest =>
    obtain ⟨k, w⟩ := x
    simp only [Memory.risingFrom, Bool.and_eq_true, decide_eq_true_eq] at h ⊢
    exact ⟨by omega, h.2⟩

theorem Memory.rising_none {m : Memory n} {b : Nat} (h : Memory.risingFrom (some b) m = true) :
    Memory.risingFrom none m = true := by
  cases m with
  | nil => rfl
  | cons x rest =>
    obtain ⟨k, w⟩ := x
    simp only [Memory.risingFrom, Bool.and_eq_true] at h ⊢
    exact h.2

theorem Memory.rising_put {m : Memory n} {b a : Nat} (v : BitVec n) (h : Memory.risingFrom (some b) m = true)
    (ha : b < a) : Memory.risingFrom (some b) (Memory.put m a v) = true := by
  induction m generalizing b with
  | nil => simp [Memory.put, Memory.risingFrom, ha]
  | cons c rest ih =>
    obtain ⟨k, w⟩ := c
    simp only [Memory.risingFrom, Bool.and_eq_true, decide_eq_true_eq] at h
    simp only [Memory.put]
    split
    · simp_all [Memory.risingFrom]
    · split
      · simp_all [Memory.risingFrom]
      · have : k < a := by omega
        simp [Memory.risingFrom, h.1, ih h.2 this]

theorem Memory.rising_put_none {m : Memory n} (a : Nat) (v : BitVec n) (h : Memory.risingFrom none m = true) :
    Memory.risingFrom none (Memory.put m a v) = true := by
  cases m with
  | nil => rfl
  | cons c rest =>
    obtain ⟨k, w⟩ := c
    simp only [Memory.risingFrom] at h
    simp only [Memory.put]
    split
    · simp_all [Memory.risingFrom]
    · split
      · simp_all [Memory.risingFrom]
      · have : k < a := by omega
        exact Memory.rising_put v h this

theorem Memory.rising_erase {m : Memory n} {b : Nat} (a : Nat) (h : Memory.risingFrom (some b) m = true) :
    Memory.risingFrom (some b) (Memory.erase m a) = true := by
  induction m generalizing b with
  | nil => rfl
  | cons c rest ih =>
    obtain ⟨k, w⟩ := c
    simp only [Memory.risingFrom, Bool.and_eq_true, decide_eq_true_eq] at h
    simp only [Memory.erase]
    split
    · exact Memory.rising_weaken h.2 (by omega)
    · simp [Memory.risingFrom, h.1, ih h.2]

theorem Memory.rising_erase_none {m : Memory n} (a : Nat) (h : Memory.risingFrom none m = true) :
    Memory.risingFrom none (Memory.erase m a) = true := by
  cases m with
  | nil => rfl
  | cons c rest =>
    obtain ⟨k, w⟩ := c
    simp only [Memory.risingFrom] at h
    simp only [Memory.erase]
    split
    · exact Memory.rising_none h
    · exact Memory.rising_erase a h

theorem Memory.all_put {m : Memory n} {q : Nat × BitVec n → Bool} {a : Nat} {v : BitVec n} (h : m.all q = true)
    (hq : q (a, v) = true) : (Memory.put m a v).all q = true := by
  induction m with
  | nil => simpa [Memory.put] using hq
  | cons c rest ih =>
    obtain ⟨k, w⟩ := c
    simp only [List.all_cons, Bool.and_eq_true] at h
    simp only [Memory.put]
    split
    · simp [hq, h.1, h.2]
    · split
      · simp [hq, h.2]
      · simp [h.1, ih h.2]

theorem Memory.all_erase {m : Memory n} {q : Nat × BitVec n → Bool} (a : Nat) (h : m.all q = true) :
    (Memory.erase m a).all q = true := by
  induction m with
  | nil => rfl
  | cons c rest ih =>
    obtain ⟨k, w⟩ := c
    simp only [List.all_cons, Bool.and_eq_true] at h
    simp only [Memory.erase]
    split
    · exact h.2
    · simp [h.1, ih h.2]

/-- A write keeps the canonical form. -/
theorem Memory.wf_put {ok : Nat → Bool} {m : Memory n} {a : Nat} (v : BitVec n) (h : Memory.wf ok m = true)
    (ha : ok a = true) : Memory.wf ok (Memory.put m a v) = true := by
  simp only [Memory.wf, Bool.and_eq_true] at h ⊢
  exact ⟨Memory.rising_put_none a v h.1, Memory.all_put h.2 ha⟩

/-- Unlisting an address keeps the canonical form. -/
theorem Memory.wf_erase {ok : Nat → Bool} {m : Memory n} (a : Nat) (h : Memory.wf ok m = true) :
    Memory.wf ok (Memory.erase m a) = true := by
  simp only [Memory.wf, Bool.and_eq_true] at h ⊢
  exact ⟨Memory.rising_erase_none a h.1, Memory.all_erase a h.2⟩

/-- A write to a memory with a known fill value keeps its canonical form. -/
theorem Memory.wfFill_putFill {ok : Nat → Bool} {fill : BitVec n} {m : Memory n} {a : Nat} (v : BitVec n)
    (h : Memory.wfFill ok fill m = true) (ha : ok a = true) :
    Memory.wfFill ok fill (Memory.putFill fill m a v) = true := by
  simp only [Memory.wfFill, Memory.putFill, Bool.and_eq_true] at h ⊢
  by_cases hv : v = fill
  · rw [if_pos hv]
    exact ⟨Memory.wf_erase a h.1, Memory.all_erase a h.2⟩
  · rw [if_neg hv]
    exact ⟨Memory.wf_put v h.1 ha, Memory.all_put h.2 (by simpa using hv)⟩

theorem Memory.lookup_erase_ne (m : Memory n) {a b : Nat} (h : b ≠ a) :
    Memory.lookup (Memory.erase m a) b = Memory.lookup m b := by
  induction m with
  | nil => rfl
  | cons c rest ih =>
    obtain ⟨k, w⟩ := c
    simp only [Memory.erase]
    split
    · rename_i h2; subst h2; simp [Memory.lookup, h]
    · simp [Memory.lookup, ih]

theorem Memory.lookup_erase_same {m : Memory n} (a : Nat) (h : Memory.risingFrom none m = true) :
    Memory.lookup (Memory.erase m a) a = none := by
  have key : ∀ (l : Memory n) (b : Option Nat), Memory.risingFrom b l = true →
      Memory.lookup (Memory.erase l a) a = none := by
    intro l
    induction l with
    | nil => intros; rfl
    | cons c rest ih =>
      intro b hb
      obtain ⟨k, w⟩ := c
      have hr : Memory.risingFrom (some k) rest = true := by
        cases b <;> simp_all [Memory.risingFrom]
      simp only [Memory.erase]
      split
      · rename_i h2; subst h2; exact Memory.lookup_of_rising hr (Nat.le_refl _)
      · rename_i h2; simp [Memory.lookup, h2, ih _ hr]
  exact key m none h

/-- A read after a write to a memory with a known fill value. -/
theorem Memory.read_putFill {fill : BitVec n} {m : Memory n} (a b : Nat) (v : BitVec n)
    (h : Memory.risingFrom none m = true) :
    Memory.read (fun _ => fill) (Memory.putFill fill m a v) b
      = if b = a then v else Memory.read (fun _ => fill) m b := by
  simp only [Memory.putFill]
  by_cases hv : v = fill
  · rw [if_pos hv]
    by_cases hb : b = a
    · subst hb; simp [Memory.read, Memory.lookup_erase_same b h, hv]
    · simp [Memory.read, Memory.lookup_erase_ne m hb, hb]
  · rw [if_neg hv, Memory.read_put]

/-- A write to another address, canonical or not. -/
theorem Memory.read_putFill_ne {fill : BitVec n} (m : Memory n) {a b : Nat} (v : BitVec n) (h : b ≠ a) :
    Memory.read (fun _ => fill) (Memory.putFill fill m a v) b = Memory.read (fun _ => fill) m b := by
  simp only [Memory.putFill]
  by_cases hv : v = fill
  · rw [if_pos hv]; simp [Memory.read, Memory.lookup_erase_ne m h]
  · rw [if_neg hv, Memory.read_put_ne _ m v h]

end Sys2Proof.Machine
end

