-- ==== Sys2Proof/Laws/State.lean ====
section
/-! SUPPORT. One lemma per field of `State` per update of it, each true by `rfl`: no proof unfolds a record update. -/

namespace Sys2Proof.Machine

@[simp] theorem State.setA_cpu (v : Byte) (s : State) : (s.setA v).cpu = { s.cpu with a := v } := rfl
@[simp] theorem State.setA_ppu (v : Byte) (s : State) : (s.setA v).ppu = s.ppu := rfl
@[simp] theorem State.setA_orch (v : Byte) (s : State) : (s.setA v).orch = s.orch := rfl
@[simp] theorem State.setA_cart (v : Byte) (s : State) : (s.setA v).cart = s.cart := rfl
@[simp] theorem State.setA_inputs (v : Byte) (s : State) : (s.setA v).inputs = s.inputs := rfl
@[simp] theorem State.setA_outputs (v : Byte) (s : State) : (s.setA v).outputs = s.outputs := rfl
@[simp] theorem State.setA_params (v : Byte) (s : State) : (s.setA v).params = s.params := rfl

@[simp] theorem State.setX_cpu (v : Byte) (s : State) : (s.setX v).cpu = { s.cpu with x := v } := rfl
@[simp] theorem State.setX_ppu (v : Byte) (s : State) : (s.setX v).ppu = s.ppu := rfl
@[simp] theorem State.setX_orch (v : Byte) (s : State) : (s.setX v).orch = s.orch := rfl
@[simp] theorem State.setX_cart (v : Byte) (s : State) : (s.setX v).cart = s.cart := rfl
@[simp] theorem State.setX_inputs (v : Byte) (s : State) : (s.setX v).inputs = s.inputs := rfl
@[simp] theorem State.setX_outputs (v : Byte) (s : State) : (s.setX v).outputs = s.outputs := rfl
@[simp] theorem State.setX_params (v : Byte) (s : State) : (s.setX v).params = s.params := rfl

@[simp] theorem State.setY_cpu (v : Byte) (s : State) : (s.setY v).cpu = { s.cpu with y := v } := rfl
@[simp] theorem State.setY_ppu (v : Byte) (s : State) : (s.setY v).ppu = s.ppu := rfl
@[simp] theorem State.setY_orch (v : Byte) (s : State) : (s.setY v).orch = s.orch := rfl
@[simp] theorem State.setY_cart (v : Byte) (s : State) : (s.setY v).cart = s.cart := rfl
@[simp] theorem State.setY_inputs (v : Byte) (s : State) : (s.setY v).inputs = s.inputs := rfl
@[simp] theorem State.setY_outputs (v : Byte) (s : State) : (s.setY v).outputs = s.outputs := rfl
@[simp] theorem State.setY_params (v : Byte) (s : State) : (s.setY v).params = s.params := rfl

@[simp] theorem State.setS_cpu (v : Byte) (s : State) : (s.setS v).cpu = { s.cpu with s := v } := rfl
@[simp] theorem State.setS_ppu (v : Byte) (s : State) : (s.setS v).ppu = s.ppu := rfl
@[simp] theorem State.setS_orch (v : Byte) (s : State) : (s.setS v).orch = s.orch := rfl
@[simp] theorem State.setS_cart (v : Byte) (s : State) : (s.setS v).cart = s.cart := rfl
@[simp] theorem State.setS_inputs (v : Byte) (s : State) : (s.setS v).inputs = s.inputs := rfl
@[simp] theorem State.setS_outputs (v : Byte) (s : State) : (s.setS v).outputs = s.outputs := rfl
@[simp] theorem State.setS_params (v : Byte) (s : State) : (s.setS v).params = s.params := rfl

@[simp] theorem State.setP_cpu (p : Flags) (s : State) : (s.setP p).cpu = { s.cpu with p := p } := rfl
@[simp] theorem State.setP_ppu (p : Flags) (s : State) : (s.setP p).ppu = s.ppu := rfl
@[simp] theorem State.setP_orch (p : Flags) (s : State) : (s.setP p).orch = s.orch := rfl
@[simp] theorem State.setP_cart (p : Flags) (s : State) : (s.setP p).cart = s.cart := rfl
@[simp] theorem State.setP_inputs (p : Flags) (s : State) : (s.setP p).inputs = s.inputs := rfl
@[simp] theorem State.setP_outputs (p : Flags) (s : State) : (s.setP p).outputs = s.outputs := rfl
@[simp] theorem State.setP_params (p : Flags) (s : State) : (s.setP p).params = s.params := rfl

@[simp] theorem State.setPc_cpu (w : Word) (s : State) : (s.setPc w).cpu = { s.cpu with pc := w } := rfl
@[simp] theorem State.setPc_ppu (w : Word) (s : State) : (s.setPc w).ppu = s.ppu := rfl
@[simp] theorem State.setPc_orch (w : Word) (s : State) : (s.setPc w).orch = s.orch := rfl
@[simp] theorem State.setPc_cart (w : Word) (s : State) : (s.setPc w).cart = s.cart := rfl
@[simp] theorem State.setPc_inputs (w : Word) (s : State) : (s.setPc w).inputs = s.inputs := rfl
@[simp] theorem State.setPc_outputs (w : Word) (s : State) : (s.setPc w).outputs = s.outputs := rfl
@[simp] theorem State.setPc_params (w : Word) (s : State) : (s.setPc w).params = s.params := rfl

@[simp] theorem State.setCycles_cpu (n : Nat) (s : State) : (s.setCycles n).cpu = { s.cpu with cycles := n } := rfl
@[simp] theorem State.setCycles_ppu (n : Nat) (s : State) : (s.setCycles n).ppu = s.ppu := rfl
@[simp] theorem State.setCycles_orch (n : Nat) (s : State) : (s.setCycles n).orch = s.orch := rfl
@[simp] theorem State.setCycles_cart (n : Nat) (s : State) : (s.setCycles n).cart = s.cart := rfl
@[simp] theorem State.setCycles_inputs (n : Nat) (s : State) : (s.setCycles n).inputs = s.inputs := rfl
@[simp] theorem State.setCycles_outputs (n : Nat) (s : State) : (s.setCycles n).outputs = s.outputs := rfl
@[simp] theorem State.setCycles_params (n : Nat) (s : State) : (s.setCycles n).params = s.params := rfl

@[simp] theorem State.mapP_cpu (f : Flags → Flags) (s : State) : (s.mapP f).cpu = { s.cpu with p := f s.cpu.p } := rfl
@[simp] theorem State.mapP_ppu (f : Flags → Flags) (s : State) : (s.mapP f).ppu = s.ppu := rfl
@[simp] theorem State.mapP_orch (f : Flags → Flags) (s : State) : (s.mapP f).orch = s.orch := rfl
@[simp] theorem State.mapP_cart (f : Flags → Flags) (s : State) : (s.mapP f).cart = s.cart := rfl
@[simp] theorem State.mapP_inputs (f : Flags → Flags) (s : State) : (s.mapP f).inputs = s.inputs := rfl
@[simp] theorem State.mapP_outputs (f : Flags → Flags) (s : State) : (s.mapP f).outputs = s.outputs := rfl
@[simp] theorem State.mapP_params (f : Flags → Flags) (s : State) : (s.mapP f).params = s.params := rfl

@[simp] theorem State.setZN_cpu (v : Byte) (s : State) : (s.setZN v).cpu = { s.cpu with p := s.cpu.p.setZN v } := rfl
@[simp] theorem State.setZN_ppu (v : Byte) (s : State) : (s.setZN v).ppu = s.ppu := rfl
@[simp] theorem State.setZN_orch (v : Byte) (s : State) : (s.setZN v).orch = s.orch := rfl
@[simp] theorem State.setZN_cart (v : Byte) (s : State) : (s.setZN v).cart = s.cart := rfl
@[simp] theorem State.setZN_inputs (v : Byte) (s : State) : (s.setZN v).inputs = s.inputs := rfl
@[simp] theorem State.setZN_outputs (v : Byte) (s : State) : (s.setZN v).outputs = s.outputs := rfl
@[simp] theorem State.setZN_params (v : Byte) (s : State) : (s.setZN v).params = s.params := rfl

@[simp] theorem State.mapPpu_cpu (f : Ppu → Ppu) (s : State) : (s.mapPpu f).cpu = s.cpu := rfl
@[simp] theorem State.mapPpu_ppu (f : Ppu → Ppu) (s : State) : (s.mapPpu f).ppu = f s.ppu := rfl
@[simp] theorem State.mapPpu_orch (f : Ppu → Ppu) (s : State) : (s.mapPpu f).orch = s.orch := rfl
@[simp] theorem State.mapPpu_cart (f : Ppu → Ppu) (s : State) : (s.mapPpu f).cart = s.cart := rfl
@[simp] theorem State.mapPpu_inputs (f : Ppu → Ppu) (s : State) : (s.mapPpu f).inputs = s.inputs := rfl
@[simp] theorem State.mapPpu_outputs (f : Ppu → Ppu) (s : State) : (s.mapPpu f).outputs = s.outputs := rfl
@[simp] theorem State.mapPpu_params (f : Ppu → Ppu) (s : State) : (s.mapPpu f).params = s.params := rfl

@[simp] theorem State.mapOrch_cpu (f : Orch → Orch) (s : State) : (s.mapOrch f).cpu = s.cpu := rfl
@[simp] theorem State.mapOrch_ppu (f : Orch → Orch) (s : State) : (s.mapOrch f).ppu = s.ppu := rfl
@[simp] theorem State.mapOrch_orch (f : Orch → Orch) (s : State) : (s.mapOrch f).orch = f s.orch := rfl
@[simp] theorem State.mapOrch_cart (f : Orch → Orch) (s : State) : (s.mapOrch f).cart = s.cart := rfl
@[simp] theorem State.mapOrch_inputs (f : Orch → Orch) (s : State) : (s.mapOrch f).inputs = s.inputs := rfl
@[simp] theorem State.mapOrch_outputs (f : Orch → Orch) (s : State) : (s.mapOrch f).outputs = s.outputs := rfl
@[simp] theorem State.mapOrch_params (f : Orch → Orch) (s : State) : (s.mapOrch f).params = s.params := rfl

@[simp] theorem State.setCart_cpu (c : Cart) (s : State) : (s.setCart c).cpu = s.cpu := rfl
@[simp] theorem State.setCart_ppu (c : Cart) (s : State) : (s.setCart c).ppu = s.ppu := rfl
@[simp] theorem State.setCart_orch (c : Cart) (s : State) : (s.setCart c).orch = s.orch := rfl
@[simp] theorem State.setCart_cart (c : Cart) (s : State) : (s.setCart c).cart = c := rfl
@[simp] theorem State.setCart_inputs (c : Cart) (s : State) : (s.setCart c).inputs = s.inputs := rfl
@[simp] theorem State.setCart_outputs (c : Cart) (s : State) : (s.setCart c).outputs = s.outputs := rfl
@[simp] theorem State.setCart_params (c : Cart) (s : State) : (s.setCart c).params = s.params := rfl

@[simp] theorem State.setWork_orch (a : Word) (v : Byte) (s : State) :
    (s.setWork a v).orch = { s.orch with workRam := Memory.put s.orch.workRam (a.toNat % 2048) v } := rfl
@[simp] theorem State.setWork_cpu (a : Word) (v : Byte) (s : State) : (s.setWork a v).cpu = s.cpu := rfl
@[simp] theorem State.setWork_ppu (a : Word) (v : Byte) (s : State) : (s.setWork a v).ppu = s.ppu := rfl
@[simp] theorem State.setWork_cart (a : Word) (v : Byte) (s : State) : (s.setWork a v).cart = s.cart := rfl
@[simp] theorem State.setWork_inputs (a : Word) (v : Byte) (s : State) : (s.setWork a v).inputs = s.inputs := rfl
@[simp] theorem State.setWork_outputs (a : Word) (v : Byte) (s : State) : (s.setWork a v).outputs = s.outputs := rfl
@[simp] theorem State.setWork_params (a : Word) (v : Byte) (s : State) : (s.setWork a v).params = s.params := rfl

@[simp] theorem Flags.setZN_c (v : Byte) (p : Flags) : (p.setZN v).c = p.c := rfl
@[simp] theorem Flags.setZN_z (v : Byte) (p : Flags) : (p.setZN v).z = decide (v = 0) := rfl
@[simp] theorem Flags.setZN_i (v : Byte) (p : Flags) : (p.setZN v).i = p.i := rfl
@[simp] theorem Flags.setZN_d (v : Byte) (p : Flags) : (p.setZN v).d = p.d := rfl
@[simp] theorem Flags.setZN_v (v : Byte) (p : Flags) : (p.setZN v).v = p.v := rfl
@[simp] theorem Flags.setZN_n (v : Byte) (p : Flags) : (p.setZN v).n = v.getLsbD 7 := rfl

/-- A state is its seven parts. -/
theorem State.eta (s : State) :
    s = { cpu := s.cpu, ppu := s.ppu, orch := s.orch, cart := s.cart, inputs := s.inputs, outputs := s.outputs,
          params := s.params } := rfl

/-- States with equal parts are equal. -/
theorem State.parts_eq {s t : State} (hc : s.cpu = t.cpu) (hp : s.ppu = t.ppu) (ho : s.orch = t.orch)
    (hk : s.cart = t.cart) (hi : s.inputs = t.inputs) (hu : s.outputs = t.outputs) (hm : s.params = t.params) :
    s = t := by
  cases s; cases t; simp_all

@[simp] theorem State.setCart_self (s : State) : s.setCart s.cart = s := rfl

/-- The state right after reset is the system reset (R530) of the machine at power-on with an empty cartridge slot,
whatever its registers held: both vector bytes read as OPEN_BUS_VALUE. -/
theorem reset_is_systemReset (c : Cpu) (o : Outputs) (w : Bool) :
    systemReset { State.reset with cpu := c, outputs := o, inputs := { State.reset.inputs with reset := w } }
      = State.reset := by
  have hp : Flags.ofByte Config.resetStatus = Flags.reset := by decide
  simp [systemReset, cpuReset, read16, memRead, memReadInside, Cart.cpuRead, chipsRead, State.reset, Cart.empty,
    Config.resetVector, State.setPc, State.setCart, hp, Ppu.resetWith, Orch.resetWith, Config.openBusValue, wordOf,
    Params.defaults, Config.resetStackPointer]

end Sys2Proof.Machine
end

