-- ==== Sys2Proof/Laws/Bus.lean ====
section
/-! SUPPORT. What one access on the PPU bus or the CPU bus can do, said once. -/

namespace Sys2Proof.Machine

/-! The cartridge. -/

/-- Of an arbitrary cartridge an answer changes only the count of answers; of a concrete one a read changes nothing. -/
theorem Cart.cpuRead_cart (a : Word) (c : Cart) : (c.cpuRead a).2 = { c with asks := (c.cpuRead a).2.asks } := by
  unfold Cart.cpuRead; split <;> rfl

theorem Cart.ppuRead_cart (a : BitVec 14) (c : Cart) : (c.ppuRead a).2 = { c with asks := (c.ppuRead a).2.asks } := by
  unfold Cart.ppuRead; split <;> rfl

theorem Cart.bank_cart (k : BitVec 2) (c : Cart) : (c.bank k).2 = { c with asks := (c.bank k).2.asks } := by
  unfold Cart.bank; split <;> rfl

theorem Cart.irqPending_cart (c : Cart) : c.irqPending.2 = { c with asks := c.irqPending.2.asks } := by
  unfold Cart.irqPending; split <;> rfl

theorem Cart.cpuRead_concrete {a : Word} {c : Cart} (h : c.oracle = false) :
    c.cpuRead a = (chipsRead c.cpuChips a.toNat, c) := by simp [Cart.cpuRead, h]

theorem Cart.ppuRead_concrete {a : BitVec 14} {c : Cart} (h : c.oracle = false) :
    c.ppuRead a = (chipsRead c.ppuChips a.toNat, c) := by simp [Cart.ppuRead, h]

theorem chipsWrite_wf {cs cs' : List Chip} {a : Nat} {v : Byte} (h : chipsWrite cs a v = some cs')
    (hw : cs.all Chip.wf = true) : cs'.all Chip.wf = true := by
  induction cs generalizing cs' with
  | nil => simp [chipsWrite] at h
  | cons c rest ih =>
    simp only [List.all_cons, Bool.and_eq_true] at hw
    simp only [chipsWrite] at h
    split at h
    · rename_i hc
      simp only [Bool.and_eq_true] at hc
      injection h with h; subst h
      simp only [List.all_cons, Bool.and_eq_true]
      exact ⟨Memory.wfFill_putFill v hw.1 hc.1, hw.2⟩
    · cases hr : chipsWrite rest a v with
      | none => simp [hr] at h
      | some r => simp [hr] at h; subst h; simp [hw.1, ih hr hw.2]

theorem Cart.cpuWrite_inv {c : Cart} (a : Word) (v : Byte) (h : c.Inv) : (c.cpuWrite a v).2.Inv := by
  unfold Cart.cpuWrite
  split
  · exact ⟨h.cpu, h.ppu⟩
  · split
    · rename_i hw; exact ⟨chipsWrite_wf hw h.cpu, h.ppu⟩
    · exact h

theorem Cart.ppuWrite_inv {c : Cart} (a : BitVec 14) (v : Byte) (h : c.Inv) : (c.ppuWrite a v).2.Inv := by
  unfold Cart.ppuWrite
  split
  · exact ⟨h.cpu, h.ppu⟩
  · split
    · rename_i hw; exact ⟨h.cpu, chipsWrite_wf hw h.ppu⟩
    · exact h

theorem Cart.inv_asks {c : Cart} (n : Nat) (h : c.Inv) : Cart.Inv { c with asks := n } := ⟨h.cpu, h.ppu⟩

/-- A write through the cartridge leaves what a read of another address gives. -/
theorem chipsRead_of_write {cs cs' : List Chip} {a b : Nat} {v : Byte} (h : chipsWrite cs a v = some cs') (hb : b ≠ a) :
    chipsRead cs' b = chipsRead cs b := by
  induction cs generalizing cs' with
  | nil => simp [chipsWrite] at h
  | cons c rest ih =>
    simp only [chipsWrite] at h
    split at h
    · injection h with h; subst h
      simp only [chipsRead, Chip.covers, Chip.byte, Memory.read_putFill_ne _ v hb]
      rfl
    · cases hr : chipsWrite rest a v with
      | none => simp [hr] at h
      | some r => simp [hr] at h; subst h; simp [chipsRead, ih hr]

/-! The PPU bus. -/

theorem ppuReadClaim_cart (a : BitVec 14) (c : Cart) :
    (ppuReadClaim a c).2 = { c with asks := (ppuReadClaim a c).2.asks } := by
  unfold ppuReadClaim; split
  · exact Cart.ppuRead_cart a c
  · rfl

theorem ppuReadClaim_concrete (a : BitVec 14) {c : Cart} (h : c.oracle = false) : (ppuReadClaim a c).2 = c := by
  unfold ppuReadClaim; split
  · rw [Cart.ppuRead_concrete h]
  · rfl

/-- From 0x3F00 up the cartridge is not asked (D31). -/
theorem ppuReadClaim_palette {a : BitVec 14} (c : Cart) (h : 0x3F00 ≤ a.toNat) : ppuReadClaim a c = (none, c) :=
  if_neg (by omega)

theorem ppuWriteClaim_palette {a : BitVec 14} (v : Byte) (c : Cart) (h : 0x3F00 ≤ a.toNat) :
    ppuWriteClaim a v c = (false, c) := if_neg (by omega)

theorem ppuWriteClaim_inv {c : Cart} (a : BitVec 14) (v : Byte) (h : c.Inv) : (ppuWriteClaim a v c).2.Inv := by
  unfold ppuWriteClaim; split
  · exact Cart.ppuWrite_inv a v h
  · exact h

/-- A palette read gives the stored byte under the mask and changes nothing (R105, D31). -/
theorem ppuRead_palette {a : Word} (s : State) (h : 0x3F00 ≤ (a.setWidth 14 : BitVec 14).toNat) :
    ppuRead a s = (Memory.read Config.initPalette s.ppu.palette (palIndex (a.setWidth 14)) &&& s.ppu.paletteMask, s) := by
  simp only [ppuRead, ppuReadClaim_palette _ h, ppuReadInside, State.setCart_self]
  rw [if_neg (by omega), if_neg (by omega)]

/-- A PPU-bus read changes at most the count of cartridge answers. -/
theorem ppuRead_state (a : Word) (s : State) :
    (ppuRead a s).2 = s.setCart { s.cart with asks := (ppuRead a s).2.cart.asks } := by
  have h := ppuReadClaim_cart (a.setWidth 14) s.cart
  unfold ppuRead
  simp only
  split
  · simp only [State.setCart]; rw [h]
  · unfold ppuReadInside ntIndex
    split
    · simp only [State.setCart]; rw [h]
    · split
      · have h2 := Cart.bank_cart ((a.setWidth 14).extractLsb' 10 2) (ppuReadClaim (a.setWidth 14) s.cart).2
        simp only [State.setCart]; rw [h2, h]
      · simp only [State.setCart]; rw [h]

@[simp] theorem ppuRead_cpu (a : Word) (s : State) : (ppuRead a s).2.cpu = s.cpu := by rw [ppuRead_state]; rfl
@[simp] theorem ppuRead_ppu (a : Word) (s : State) : (ppuRead a s).2.ppu = s.ppu := by rw [ppuRead_state]; rfl
@[simp] theorem ppuRead_orch (a : Word) (s : State) : (ppuRead a s).2.orch = s.orch := by rw [ppuRead_state]; rfl
@[simp] theorem ppuRead_inputs (a : Word) (s : State) : (ppuRead a s).2.inputs = s.inputs := by rw [ppuRead_state]; rfl
@[simp] theorem ppuRead_outputs (a : Word) (s : State) : (ppuRead a s).2.outputs = s.outputs := by
  rw [ppuRead_state]; rfl
@[simp] theorem ppuRead_params (a : Word) (s : State) : (ppuRead a s).2.params = s.params := by rw [ppuRead_state]; rfl

theorem ppuRead_cart (a : Word) (s : State) :
    (ppuRead a s).2.cart = { s.cart with asks := (ppuRead a s).2.cart.asks } := by
  conv => lhs; rw [ppuRead_state]
  rfl

/-- With a concrete cartridge a PPU-bus read changes nothing. -/
theorem ppuRead_concrete (a : Word) {s : State} (h : s.cart.oracle = false) : (ppuRead a s).2 = s := by
  have hb : ∀ k, (s.cart.bank k).2 = s.cart := by intro k; simp [Cart.bank, h]
  unfold ppuRead
  simp only [ppuReadClaim_concrete _ h, State.setCart_self]
  split
  · rfl
  · unfold ppuReadInside ntIndex
    split
    · rfl
    · split
      · simp only [State.setCart_self, hb]
      · rfl

/-- The index of a nametable byte is inside the 2048 bytes (R103). -/
theorem ntIndex_lt (a : BitVec 14) (c : Cart) : (ntIndex a c).1 < 2048 := by
  simp only [ntIndex]
  split <;> omega

theorem palIndex_ok (a : BitVec 14) : paletteSlot (palIndex a) = true := by
  have h : ∀ i, i < 32 → paletteSlot (if i = 0x10 then 0x00 else if i = 0x14 then 0x04 else if i = 0x18 then 0x08
      else if i = 0x1C then 0x0C else i) = true := by decide
  exact h (a.toNat % 32) (Nat.mod_lt _ (by decide))

/-- What a PPU-bus write can change: pattern, nametable and palette memory, and the cartridge. -/
theorem ppuWrite_frame (a : Word) (v : Byte) (s : State) :
    ppuWrite a v s = { s with
      ppu := { s.ppu with
        pattern := (ppuWrite a v s).ppu.pattern, nametable := (ppuWrite a v s).ppu.nametable
        palette := (ppuWrite a v s).ppu.palette }
      cart := (ppuWrite a v s).cart } := by
  unfold ppuWrite ppuWriteInside
  simp only
  split
  · rfl
  · split
    · rfl
    · split <;> rfl

@[simp] theorem ppuWrite_cpu (a : Word) (v : Byte) (s : State) : (ppuWrite a v s).cpu = s.cpu := by
  rw [ppuWrite_frame]
@[simp] theorem ppuWrite_orch (a : Word) (v : Byte) (s : State) : (ppuWrite a v s).orch = s.orch := by
  rw [ppuWrite_frame]
@[simp] theorem ppuWrite_inputs (a : Word) (v : Byte) (s : State) : (ppuWrite a v s).inputs = s.inputs := by
  rw [ppuWrite_frame]
@[simp] theorem ppuWrite_outputs (a : Word) (v : Byte) (s : State) : (ppuWrite a v s).outputs = s.outputs := by
  rw [ppuWrite_frame]
@[simp] theorem ppuWrite_params (a : Word) (v : Byte) (s : State) : (ppuWrite a v s).params = s.params := by
  rw [ppuWrite_frame]

theorem ppuWrite_ppu (a : Word) (v : Byte) (s : State) :
    (ppuWrite a v s).ppu = { s.ppu with
      pattern := (ppuWrite a v s).ppu.pattern, nametable := (ppuWrite a v s).ppu.nametable
      palette := (ppuWrite a v s).ppu.palette } := by
  conv => lhs; rw [ppuWrite_frame]

/-- A PPU-bus write keeps the PPU's memories and the cartridge canonical. -/
theorem ppuWrite_inv {s : State} (a : Word) (v : Byte) (hp : s.ppu.Inv) (hc : s.cart.Inv) :
    (ppuWrite a v s).ppu.Inv ∧ (ppuWrite a v s).cart.Inv := by
  have hw := ppuWriteClaim_inv (a.setWidth 14) v hc
  unfold ppuWrite ppuWriteInside
  simp only
  split
  · exact ⟨hp, hw⟩
  · split
    · rename_i h; exact ⟨{ hp with pattern := Memory.wf_put v hp.pattern (by simpa using h) }, hw⟩
    · split
      · refine ⟨{ hp with nametable := Memory.wf_put v hp.nametable (decide_eq_true (ntIndex_lt _ _)) }, ?_⟩
        simp only [State.mapPpu_cart, State.setCart_cart, ntIndex]
        rw [Cart.bank_cart]
        exact Cart.inv_asks _ hw
      · exact ⟨{ hp with palette := Memory.wf_put v hp.palette (palIndex_ok _) }, hw⟩

/-! The CPU bus: reads. -/

theorem ReadFrame.refl (s : State) : ReadFrame s s := rfl

theorem ReadFrame.trans {s t u : State} (h : ReadFrame s t) (k : ReadFrame t u) : ReadFrame s u := by
  unfold ReadFrame at *
  rw [k, h]

/-- The CPU is not part of what `ReadFrame` fixes. -/
theorem ReadFrame.withCpu {s t : State} (c : Cpu) (h : ReadFrame s t) : ReadFrame s { t with cpu := c } := by
  unfold ReadFrame at *
  conv => lhs; rw [h]

theorem ReadFrame.ofCpu {s t : State} {c : Cpu} (h : ReadFrame { s with cpu := c } t) : ReadFrame s t := by
  unfold ReadFrame at *
  conv => lhs; rw [h]

theorem portRead_frame (n : BitVec 3) (s : State) : ReadFrame s (portRead n s).2 := by
  unfold portRead
  split
  · rfl
  · rfl
  · have h := ppuRead_state (s.ppu.v.setWidth 16) s
    unfold ReadFrame readData
    simp only [State.mapPpu, Ppu.stepV]
    rw [h]; rfl
  · rfl

/-- What one CPU-bus read can change (R95). -/
theorem memRead_frame (a : Word) (s : State) : ReadFrame s (memRead a s).2 := by
  have hc := Cart.cpuRead_cart a s.cart
  have h0 : ReadFrame s (s.setCart (s.cart.cpuRead a).2) := by
    unfold ReadFrame; simp only [State.setCart]; rw [hc]
  unfold memRead
  simp only
  split
  · exact h0
  · refine h0.trans ?_
    unfold memReadInside
    split
    · rfl
    · split
      · exact portRead_frame _ _
      · split
        · rfl
        · split <;> rfl

theorem portRead_cpu (n : BitVec 3) (s : State) : (portRead n s).2.cpu = s.cpu := by
  unfold portRead
  split
  · rfl
  · rfl
  · simp [readData]
  · rfl

/-- A CPU-bus read changes no CPU register. -/
@[simp] theorem memRead_cpu (a : Word) (s : State) : (memRead a s).2.cpu = s.cpu := by
  unfold memRead
  simp only
  split
  · rfl
  · unfold memReadInside
    split
    · rfl
    · split
      · exact portRead_cpu _ _
      · split
        · rfl
        · split <;> rfl

@[simp] theorem memRead_inputs (a : Word) (s : State) : (memRead a s).2.inputs = s.inputs := by
  rw [memRead_frame a s]
@[simp] theorem memRead_outputs (a : Word) (s : State) : (memRead a s).2.outputs = s.outputs := by
  rw [memRead_frame a s]
@[simp] theorem memRead_params (a : Word) (s : State) : (memRead a s).2.params = s.params := by
  rw [memRead_frame a s]

/-- A read of an address without side effects changes nothing when the cartridge is concrete (R95). -/
theorem memRead_plain {a : Word} {s : State} (h : s.cart.oracle = false) (ha : plainAddr a = true) :
    (memRead a s).2 = s := by
  simp only [plainAddr, Bool.and_eq_true, Bool.not_eq_true', decide_eq_true_eq] at ha
  obtain ⟨⟨h1, h2⟩, h3⟩ := ha
  unfold memRead
  simp only [Cart.cpuRead_concrete h]
  split
  · rfl
  · unfold memReadInside
    split
    · rfl
    · rename_i hlt
      split
      · rename_i hlt2
        simp_all
      · rfl

/-! The CPU bus: writes. -/

theorem portWrite_inv {s : State} (n : BitVec 3) (d : Byte) (hp : s.ppu.Inv) (hc : s.cart.Inv) :
    (portWrite n d s).ppu.Inv ∧ (portWrite n d s).cart.Inv := by
  unfold portWrite
  split
  · exact ⟨{ hp with }, hc⟩
  · exact ⟨{ hp with }, hc⟩
  · exact ⟨{ hp with }, hc⟩
  · exact ⟨{ hp with oam := Memory.wf_put d hp.oam (by simpa using s.ppu.oamAddr.isLt) }, hc⟩
  · simp only [State.mapPpu, writeScroll]
    split <;> exact ⟨{ hp with }, hc⟩
  · simp only [State.mapPpu, writeAddress]
    split <;> exact ⟨{ hp with }, hc⟩
  · have h := ppuWrite_inv (s.ppu.v.setWidth 16) d hp hc
    unfold writeData
    exact ⟨{ h.1 with }, h.2⟩
  · exact ⟨hp, hc⟩

/-- A port write leaves all but the PPU and the cartridge alone. -/
theorem portWrite_frame (n : BitVec 3) (d : Byte) (s : State) :
    portWrite n d s = { s with ppu := (portWrite n d s).ppu, cart := (portWrite n d s).cart } := by
  unfold portWrite
  split <;> first | rfl | (unfold writeData; rw [ppuWrite_frame]; rfl)

/-- What one CPU-bus write can change: all but the CPU, the inputs, the outputs and the parameters. -/
theorem memWrite_frame (a : Word) (v : Byte) (s : State) :
    memWrite a v s = { s with
      ppu := (memWrite a v s).ppu, orch := (memWrite a v s).orch, cart := (memWrite a v s).cart } := by
  unfold memWrite memWriteInside
  simp only
  split
  · rfl
  · split
    · rfl
    · split
      · conv => lhs; rw [portWrite_frame]
        conv => rhs; rw [portWrite_frame]
        rfl
      · split
        · rfl
        · split
          · rfl
          · split <;> rfl

@[simp] theorem memWrite_cpu (a : Word) (v : Byte) (s : State) : (memWrite a v s).cpu = s.cpu := by rw [memWrite_frame]
@[simp] theorem memWrite_inputs (a : Word) (v : Byte) (s : State) : (memWrite a v s).inputs = s.inputs := by
  rw [memWrite_frame]
@[simp] theorem memWrite_outputs (a : Word) (v : Byte) (s : State) : (memWrite a v s).outputs = s.outputs := by
  rw [memWrite_frame]
@[simp] theorem memWrite_params (a : Word) (v : Byte) (s : State) : (memWrite a v s).params = s.params := by
  rw [memWrite_frame]

/-- The parts of the invariant that hold in the middle of a step. -/
structure Inner (s : State) : Prop where
  ppu : s.ppu.Inv
  orch : s.orch.Inv
  cart : s.cart.Inv
  params : s.params.Inv

theorem State.Inv.inner {s : State} (h : s.Inv) : Inner s := ⟨h.ppu, h.orch, h.cart, h.params⟩

/-- The CPU is not part of `Inner`. -/
theorem Inner.ofEq {s t : State} (h : Inner s) (hp : t.ppu = s.ppu) (ho : t.orch = s.orch) (hc : t.cart = s.cart)
    (hm : t.params = s.params) : Inner t := ⟨hp ▸ h.ppu, ho ▸ h.orch, hc ▸ h.cart, hm ▸ h.params⟩

theorem Inner.ofReadFrame {s t : State} (h : Inner s) (k : ReadFrame s t) : Inner t := by
  unfold ReadFrame at k
  rw [k]
  exact ⟨{ h.ppu with }, { h.orch with }, Cart.inv_asks _ h.cart, h.params⟩

theorem memRead_inner {s : State} (a : Word) (h : Inner s) : Inner (memRead a s).2 := h.ofReadFrame (memRead_frame a s)

theorem memWrite_inner {s : State} (a : Word) (v : Byte) (h : Inner s) : Inner (memWrite a v s) := by
  have hw := Cart.cpuWrite_inv a v h.cart
  unfold memWrite memWriteInside
  simp only
  split
  · exact ⟨h.ppu, h.orch, hw, h.params⟩
  · split
    · exact ⟨h.ppu, { h.orch with work := Memory.wf_put v h.orch.work (by simp; omega) }, hw, h.params⟩
    · split
      · have := portWrite_inv (s := s.setCart (s.cart.cpuWrite a v).2) (a.extractLsb' 0 3) v h.ppu hw
        refine ⟨this.1, ?_, this.2, ?_⟩
        · rw [portWrite_frame]; exact h.orch
        · rw [portWrite_frame]; exact h.params
      · split
        · exact ⟨h.ppu, { h.orch with }, hw, h.params⟩
        · split
          · exact ⟨h.ppu, ⟨h.orch.work, fun k => by simp [dmaStart] at k, h.orch.audio⟩, hw, h.params⟩
          · split
            · exact ⟨h.ppu, { h.orch with }, hw, h.params⟩
            · exact ⟨h.ppu, h.orch, hw, h.params⟩

end Sys2Proof.Machine
end

