-- ==== Sys2Proof/Laws/Decode.lean ====
section
/-! SUPPORT. The instruction table is full, and the two bytes of a word make the word. -/

namespace Sys2Proof.Laws

/-- The matrix has 16 rows of 16 entries, so no lookup takes a default (R144). -/
theorem opcodeMatrix_full :
    opcodeMatrix.length = 16 ∧ ∀ r ∈ opcodeMatrix, r.length = 16 := by
  constructor
  · rfl
  · intro r hr
    simp only [opcodeMatrix, List.mem_cons, List.not_mem_nil, or_false] at hr
    rcases hr with h | h | h | h | h | h | h | h | h | h | h | h | h | h | h | h <;> subst h <;> rfl

/-- The high and the low byte of a word make the word (R8). -/
@[simp] theorem wordOf_hi_lo (w : Word) : wordOf (hi w) (lo w) = w := by
  apply BitVec.eq_of_getLsbD_eq
  intro i hi
  simp only [wordOf, Sys2Proof.hi, lo, BitVec.getLsbD_append, BitVec.getLsbD_extractLsb']
  split
  · simp; omega
  · have h : i - 8 < 8 := by omega
    have h2 : 8 + (i - 8) = i := by omega
    simp [h, h2]

@[simp] theorem hi_wordOf (h l : Byte) : hi (wordOf h l) = h := by
  apply BitVec.eq_of_getLsbD_eq
  intro i hi'
  simp only [wordOf, hi, BitVec.getLsbD_extractLsb', hi', decide_true, Bool.true_and]
  rw [BitVec.getLsbD_append]
  simp

@[simp] theorem lo_wordOf (h l : Byte) : lo (wordOf h l) = l := by
  apply BitVec.eq_of_getLsbD_eq
  intro i hi'
  simp only [wordOf, lo, BitVec.getLsbD_extractLsb', hi', decide_true, Bool.true_and]
  rw [BitVec.getLsbD_append]
  simp [hi']

/-- A byte loaded into P and read back (R24): bits 4 and 5 are lost, Unused reads 1 and Break 0. -/
theorem toByte_ofByte (b : Byte) : (Machine.Flags.ofByte b).toByte = (b &&& 0xCF) ||| 0x20 := by
  revert b; decide

/-- P read as a byte and loaded back (R24). -/
@[simp] theorem ofByte_toByte (p : Machine.Flags) : Machine.Flags.ofByte p.toByte = p := by
  obtain ⟨c, z, i, d, v, n⟩ := p
  revert c z i d v n; decide

end Sys2Proof.Laws
end

