-- ==== Sys2Proof/Laws/Meaning.lean ====
section
/-! SUPPORT. What `exec` runs, by mnemonic: the 256 arms are 76 meanings, each over the operand and the base cost of the
instruction. A statement about one mnemonic or all of them is proved over 76 cases and covers every form. -/

namespace Sys2Proof

/-- The offset byte of a branch. -/
def Operand.offset : Operand → Byte
  | .rel b => b
  | _ => 0

/-- The address operand of JSR. -/
def Operand.target : Operand → Word
  | .abs w => w
  | _ => 0

namespace Machine

/-- The meaning of a mnemonic over an operand `o` and a base cost `n`. -/
def meaning (m : Mnemonic) (o : Operand) (n : Nat) : State → Result :=
  match m with
  | .lda => execRead o n true opLda
  | .ldx => execRead o n true opLdx
  | .ldy => execRead o n true opLdy
  | .adc => execRead o n true opAdc
  | .sbc => execRead o n true opSbc
  | .and => execRead o n true opAnd
  | .ora => execRead o n true opOra
  | .eor => execRead o n true opEor
  | .bit => execRead o n false opBit
  | .cmp => execRead o n true opCmp
  | .cpx => execRead o n false opCpx
  | .cpy => execRead o n false opCpy
  | .lax => execRead o n true opLax
  | .anc => execRead o n false opAnc
  | .alr => execRead o n false opAlr
  | .arr => execRead o n false opArr
  | .axs => execRead o n false opAxs
  | .nop => execRead o n true opDiscard
  | .las => execRead o n true opDiscard
  | .ane => execRead o n false opDiscard
  | .lxa => execRead o n false opDiscard
  | .sha => execNoAccess o n
  | .shx => execNoAccess o n
  | .shy => execNoAccess o n
  | .tas => execNoAccess o n
  | .sta => execStore o n Cpu.a
  | .stx => execStore o n Cpu.x
  | .sty => execStore o n Cpu.y
  | .sax => execStore o n (fun c => c.a &&& c.x)
  | .inc => execModify o n incByte flagsOfResult
  | .dec => execModify o n decByte flagsOfResult
  | .asl => execModify o n aslByte flagsLeft
  | .rol => execModify o n rolByte flagsLeft
  | .lsr => execModify o n lsrByte flagsRight
  | .ror => execModify o n rorByte flagsRight
  | .slo => execModify o n aslByte opSlo
  | .rla => execModify o n rolByte opRla
  | .sre => execModify o n lsrByte opSre
  | .rra => execModify o n rorByte opRra
  | .dcp => execModify o n decByte opDcp
  | .isc => execModify o n incByte opIsc
  | .bcc => execBranch o.offset n (fun p => !p.c)
  | .bcs => execBranch o.offset n (fun p => p.c)
  | .beq => execBranch o.offset n (fun p => p.z)
  | .bne => execBranch o.offset n (fun p => !p.z)
  | .bmi => execBranch o.offset n (fun p => p.n)
  | .bpl => execBranch o.offset n (fun p => !p.n)
  | .bvc => execBranch o.offset n (fun p => !p.v)
  | .bvs => execBranch o.offset n (fun p => p.v)
  | .jmp => execJump o n
  | .jsr => execImplied n (opJsr o.target)
  | .rti => execImplied n trapReturn
  | .jam => execImplied n id
  | .clc => execImplied n (State.mapP fun p => { p with c := false })
  | .sec => execImplied n (State.mapP fun p => { p with c := true })
  | .cli => execImplied n (State.mapP fun p => { p with i := false })
  | .sei => execImplied n (State.mapP fun p => { p with i := true })
  | .cld => execImplied n (State.mapP fun p => { p with d := false })
  | .sed => execImplied n (State.mapP fun p => { p with d := true })
  | .clv => execImplied n (State.mapP fun p => { p with v := false })
  | .tax => execImplied n opTax
  | .tay => execImplied n opTay
  | .txa => execImplied n opTxa
  | .tya => execImplied n opTya
  | .tsx => execImplied n opTsx
  | .txs => execImplied n opTxs
  | .inx => execImplied n opInx
  | .iny => execImplied n opIny
  | .dex => execImplied n opDex
  | .dey => execImplied n opDey
  | .rts => execImplied n opRts
  | .brk => execImplied n opBrk
  | .pha => execImplied n opPha
  | .php => execImplied n opPhp
  | .pla => execImplied n opPla
  | .plp => execImplied n opPlp

/-- Every instruction is its mnemonic's meaning over its operand and its base cost. -/
theorem exec_meaning (i : Instr) (s : State) : exec i s = meaning i.mnemonic i.operand i.baseCycles s := by
  cases i <;> rfl

end Machine

end Sys2Proof
end

