-- ==== Sys2Proof/Laws/Shapes.lean ====
section
/-! SUPPORT. The shape of every instruction: what `exec` runs for each constructor, each equation true by `rfl`. -/

namespace Sys2Proof.Machine

@[simp] theorem exec_brk (s : State) :
    exec .brk s = execImplied 7 opBrk s := rfl
@[simp] theorem exec_oraIzx (b : Byte) (s : State) :
    exec (.oraIzx b) s = execRead (.izx b) 6 true opOra s := rfl
@[simp] theorem exec_jam02 (s : State) :
    exec .jam02 s = execImplied 2 id s := rfl
@[simp] theorem exec_sloIzx (b : Byte) (s : State) :
    exec (.sloIzx b) s = execModify (.izx b) 8 aslByte opSlo s := rfl
@[simp] theorem exec_nopZp04 (b : Byte) (s : State) :
    exec (.nopZp04 b) s = execRead (.zp b) 3 false opDiscard s := rfl
@[simp] theorem exec_oraZp (b : Byte) (s : State) :
    exec (.oraZp b) s = execRead (.zp b) 3 true opOra s := rfl
@[simp] theorem exec_aslZp (b : Byte) (s : State) :
    exec (.aslZp b) s = execModify (.zp b) 5 aslByte flagsLeft s := rfl
@[simp] theorem exec_sloZp (b : Byte) (s : State) :
    exec (.sloZp b) s = execModify (.zp b) 5 aslByte opSlo s := rfl
@[simp] theorem exec_php (s : State) :
    exec .php s = execImplied 3 opPhp s := rfl
@[simp] theorem exec_oraImm (b : Byte) (s : State) :
    exec (.oraImm b) s = execRead (.imm b) 2 true opOra s := rfl
@[simp] theorem exec_aslAcc (s : State) :
    exec .aslAcc s = execModify .acc 2 aslByte flagsLeft s := rfl
@[simp] theorem exec_anc0B (b : Byte) (s : State) :
    exec (.anc0B b) s = execRead (.imm b) 2 false opAnc s := rfl
@[simp] theorem exec_nopAbs0C (w : Word) (s : State) :
    exec (.nopAbs0C w) s = execRead (.abs w) 4 false opDiscard s := rfl
@[simp] theorem exec_oraAbs (w : Word) (s : State) :
    exec (.oraAbs w) s = execRead (.abs w) 4 true opOra s := rfl
@[simp] theorem exec_aslAbs (w : Word) (s : State) :
    exec (.aslAbs w) s = execModify (.abs w) 6 aslByte flagsLeft s := rfl
@[simp] theorem exec_sloAbs (w : Word) (s : State) :
    exec (.sloAbs w) s = execModify (.abs w) 6 aslByte opSlo s := rfl
@[simp] theorem exec_bpl (b : Byte) (s : State) :
    exec (.bpl b) s = execBranch b 2 (fun p => !p.n) s := rfl
@[simp] theorem exec_oraIzy (b : Byte) (s : State) :
    exec (.oraIzy b) s = execRead (.izy b) 5 true opOra s := rfl
@[simp] theorem exec_jam12 (s : State) :
    exec .jam12 s = execImplied 2 id s := rfl
@[simp] theorem exec_sloIzy (b : Byte) (s : State) :
    exec (.sloIzy b) s = execModify (.izy b) 8 aslByte opSlo s := rfl
@[simp] theorem exec_nopZpx14 (b : Byte) (s : State) :
    exec (.nopZpx14 b) s = execRead (.zpx b) 4 false opDiscard s := rfl
@[simp] theorem exec_oraZpx (b : Byte) (s : State) :
    exec (.oraZpx b) s = execRead (.zpx b) 4 true opOra s := rfl
@[simp] theorem exec_aslZpx (b : Byte) (s : State) :
    exec (.aslZpx b) s = execModify (.zpx b) 6 aslByte flagsLeft s := rfl
@[simp] theorem exec_sloZpx (b : Byte) (s : State) :
    exec (.sloZpx b) s = execModify (.zpx b) 6 aslByte opSlo s := rfl
@[simp] theorem exec_clc (s : State) :
    exec .clc s = execImplied 2 (State.mapP fun p => { p with c := false }) s := rfl
@[simp] theorem exec_oraAby (w : Word) (s : State) :
    exec (.oraAby w) s = execRead (.aby w) 4 true opOra s := rfl
@[simp] theorem exec_nopImp1A (s : State) :
    exec .nopImp1A s = execImplied 2 id s := rfl
@[simp] theorem exec_sloAby (w : Word) (s : State) :
    exec (.sloAby w) s = execModify (.aby w) 7 aslByte opSlo s := rfl
@[simp] theorem exec_nopAbx1C (w : Word) (s : State) :
    exec (.nopAbx1C w) s = execRead (.abx w) 4 true opDiscard s := rfl
@[simp] theorem exec_oraAbx (w : Word) (s : State) :
    exec (.oraAbx w) s = execRead (.abx w) 4 true opOra s := rfl
@[simp] theorem exec_aslAbx (w : Word) (s : State) :
    exec (.aslAbx w) s = execModify (.abx w) 7 aslByte flagsLeft s := rfl
@[simp] theorem exec_sloAbx (w : Word) (s : State) :
    exec (.sloAbx w) s = execModify (.abx w) 7 aslByte opSlo s := rfl
@[simp] theorem exec_jsr (w : Word) (s : State) :
    exec (.jsr w) s = execImplied 6 (opJsr w) s := rfl
@[simp] theorem exec_andIzx (b : Byte) (s : State) :
    exec (.andIzx b) s = execRead (.izx b) 6 true opAnd s := rfl
@[simp] theorem exec_jam22 (s : State) :
    exec .jam22 s = execImplied 2 id s := rfl
@[simp] theorem exec_rlaIzx (b : Byte) (s : State) :
    exec (.rlaIzx b) s = execModify (.izx b) 8 rolByte opRla s := rfl
@[simp] theorem exec_bitZp (b : Byte) (s : State) :
    exec (.bitZp b) s = execRead (.zp b) 3 false opBit s := rfl
@[simp] theorem exec_andZp (b : Byte) (s : State) :
    exec (.andZp b) s = execRead (.zp b) 3 true opAnd s := rfl
@[simp] theorem exec_rolZp (b : Byte) (s : State) :
    exec (.rolZp b) s = execModify (.zp b) 5 rolByte flagsLeft s := rfl
@[simp] theorem exec_rlaZp (b : Byte) (s : State) :
    exec (.rlaZp b) s = execModify (.zp b) 5 rolByte opRla s := rfl
@[simp] theorem exec_plp (s : State) :
    exec .plp s = execImplied 4 opPlp s := rfl
@[simp] theorem exec_andImm (b : Byte) (s : State) :
    exec (.andImm b) s = execRead (.imm b) 2 true opAnd s := rfl
@[simp] theorem exec_rolAcc (s : State) :
    exec .rolAcc s = execModify .acc 2 rolByte flagsLeft s := rfl
@[simp] theorem exec_anc2B (b : Byte) (s : State) :
    exec (.anc2B b) s = execRead (.imm b) 2 false opAnc s := rfl
@[simp] theorem exec_bitAbs (w : Word) (s : State) :
    exec (.bitAbs w) s = execRead (.abs w) 4 false opBit s := rfl
@[simp] theorem exec_andAbs (w : Word) (s : State) :
    exec (.andAbs w) s = execRead (.abs w) 4 true opAnd s := rfl
@[simp] theorem exec_rolAbs (w : Word) (s : State) :
    exec (.rolAbs w) s = execModify (.abs w) 6 rolByte flagsLeft s := rfl
@[simp] theorem exec_rlaAbs (w : Word) (s : State) :
    exec (.rlaAbs w) s = execModify (.abs w) 6 rolByte opRla s := rfl
@[simp] theorem exec_bmi (b : Byte) (s : State) :
    exec (.bmi b) s = execBranch b 2 (fun p => p.n) s := rfl
@[simp] theorem exec_andIzy (b : Byte) (s : State) :
    exec (.andIzy b) s = execRead (.izy b) 5 true opAnd s := rfl
@[simp] theorem exec_jam32 (s : State) :
    exec .jam32 s = execImplied 2 id s := rfl
@[simp] theorem exec_rlaIzy (b : Byte) (s : State) :
    exec (.rlaIzy b) s = execModify (.izy b) 8 rolByte opRla s := rfl
@[simp] theorem exec_nopZpx34 (b : Byte) (s : State) :
    exec (.nopZpx34 b) s = execRead (.zpx b) 4 false opDiscard s := rfl
@[simp] theorem exec_andZpx (b : Byte) (s : State) :
    exec (.andZpx b) s = execRead (.zpx b) 4 true opAnd s := rfl
@[simp] theorem exec_rolZpx (b : Byte) (s : State) :
    exec (.rolZpx b) s = execModify (.zpx b) 6 rolByte flagsLeft s := rfl
@[simp] theorem exec_rlaZpx (b : Byte) (s : State) :
    exec (.rlaZpx b) s = execModify (.zpx b) 6 rolByte opRla s := rfl
@[simp] theorem exec_sec (s : State) :
    exec .sec s = execImplied 2 (State.mapP fun p => { p with c := true }) s := rfl
@[simp] theorem exec_andAby (w : Word) (s : State) :
    exec (.andAby w) s = execRead (.aby w) 4 true opAnd s := rfl
@[simp] theorem exec_nopImp3A (s : State) :
    exec .nopImp3A s = execImplied 2 id s := rfl
@[simp] theorem exec_rlaAby (w : Word) (s : State) :
    exec (.rlaAby w) s = execModify (.aby w) 7 rolByte opRla s := rfl
@[simp] theorem exec_nopAbx3C (w : Word) (s : State) :
    exec (.nopAbx3C w) s = execRead (.abx w) 4 true opDiscard s := rfl
@[simp] theorem exec_andAbx (w : Word) (s : State) :
    exec (.andAbx w) s = execRead (.abx w) 4 true opAnd s := rfl
@[simp] theorem exec_rolAbx (w : Word) (s : State) :
    exec (.rolAbx w) s = execModify (.abx w) 7 rolByte flagsLeft s := rfl
@[simp] theorem exec_rlaAbx (w : Word) (s : State) :
    exec (.rlaAbx w) s = execModify (.abx w) 7 rolByte opRla s := rfl
@[simp] theorem exec_rti (s : State) :
    exec .rti s = execImplied 6 trapReturn s := rfl
@[simp] theorem exec_eorIzx (b : Byte) (s : State) :
    exec (.eorIzx b) s = execRead (.izx b) 6 true opEor s := rfl
@[simp] theorem exec_jam42 (s : State) :
    exec .jam42 s = execImplied 2 id s := rfl
@[simp] theorem exec_sreIzx (b : Byte) (s : State) :
    exec (.sreIzx b) s = execModify (.izx b) 8 lsrByte opSre s := rfl
@[simp] theorem exec_nopZp44 (b : Byte) (s : State) :
    exec (.nopZp44 b) s = execRead (.zp b) 3 false opDiscard s := rfl
@[simp] theorem exec_eorZp (b : Byte) (s : State) :
    exec (.eorZp b) s = execRead (.zp b) 3 true opEor s := rfl
@[simp] theorem exec_lsrZp (b : Byte) (s : State) :
    exec (.lsrZp b) s = execModify (.zp b) 5 lsrByte flagsRight s := rfl
@[simp] theorem exec_sreZp (b : Byte) (s : State) :
    exec (.sreZp b) s = execModify (.zp b) 5 lsrByte opSre s := rfl
@[simp] theorem exec_pha (s : State) :
    exec .pha s = execImplied 3 opPha s := rfl
@[simp] theorem exec_eorImm (b : Byte) (s : State) :
    exec (.eorImm b) s = execRead (.imm b) 2 true opEor s := rfl
@[simp] theorem exec_lsrAcc (s : State) :
    exec .lsrAcc s = execModify .acc 2 lsrByte flagsRight s := rfl
@[simp] theorem exec_alr (b : Byte) (s : State) :
    exec (.alr b) s = execRead (.imm b) 2 false opAlr s := rfl
@[simp] theorem exec_jmpAbs (w : Word) (s : State) :
    exec (.jmpAbs w) s = execJump (.abs w) 3 s := rfl
@[simp] theorem exec_eorAbs (w : Word) (s : State) :
    exec (.eorAbs w) s = execRead (.abs w) 4 true opEor s := rfl
@[simp] theorem exec_lsrAbs (w : Word) (s : State) :
    exec (.lsrAbs w) s = execModify (.abs w) 6 lsrByte flagsRight s := rfl
@[simp] theorem exec_sreAbs (w : Word) (s : State) :
    exec (.sreAbs w) s = execModify (.abs w) 6 lsrByte opSre s := rfl
@[simp] theorem exec_bvc (b : Byte) (s : State) :
    exec (.bvc b) s = execBranch b 2 (fun p => !p.v) s := rfl
@[simp] theorem exec_eorIzy (b : Byte) (s : State) :
    exec (.eorIzy b) s = execRead (.izy b) 5 true opEor s := rfl
@[simp] theorem exec_jam52 (s : State) :
    exec .jam52 s = execImplied 2 id s := rfl
@[simp] theorem exec_sreIzy (b : Byte) (s : State) :
    exec (.sreIzy b) s = execModify (.izy b) 8 lsrByte opSre s := rfl
@[simp] theorem exec_nopZpx54 (b : Byte) (s : State) :
    exec (.nopZpx54 b) s = execRead (.zpx b) 4 false opDiscard s := rfl
@[simp] theorem exec_eorZpx (b : Byte) (s : State) :
    exec (.eorZpx b) s = execRead (.zpx b) 4 true opEor s := rfl
@[simp] theorem exec_lsrZpx (b : Byte) (s : State) :
    exec (.lsrZpx b) s = execModify (.zpx b) 6 lsrByte flagsRight s := rfl
@[simp] theorem exec_sreZpx (b : Byte) (s : State) :
    exec (.sreZpx b) s = execModify (.zpx b) 6 lsrByte opSre s := rfl
@[simp] theorem exec_cli (s : State) :
    exec .cli s = execImplied 2 (State.mapP fun p => { p with i := false }) s := rfl
@[simp] theorem exec_eorAby (w : Word) (s : State) :
    exec (.eorAby w) s = execRead (.aby w) 4 true opEor s := rfl
@[simp] theorem exec_nopImp5A (s : State) :
    exec .nopImp5A s = execImplied 2 id s := rfl
@[simp] theorem exec_sreAby (w : Word) (s : State) :
    exec (.sreAby w) s = execModify (.aby w) 7 lsrByte opSre s := rfl
@[simp] theorem exec_nopAbx5C (w : Word) (s : State) :
    exec (.nopAbx5C w) s = execRead (.abx w) 4 true opDiscard s := rfl
@[simp] theorem exec_eorAbx (w : Word) (s : State) :
    exec (.eorAbx w) s = execRead (.abx w) 4 true opEor s := rfl
@[simp] theorem exec_lsrAbx (w : Word) (s : State) :
    exec (.lsrAbx w) s = execModify (.abx w) 7 lsrByte flagsRight s := rfl
@[simp] theorem exec_sreAbx (w : Word) (s : State) :
    exec (.sreAbx w) s = execModify (.abx w) 7 lsrByte opSre s := rfl
@[simp] theorem exec_rts (s : State) :
    exec .rts s = execImplied 6 opRts s := rfl
@[simp] theorem exec_adcIzx (b : Byte) (s : State) :
    exec (.adcIzx b) s = execRead (.izx b) 6 true opAdc s := rfl
@[simp] theorem exec_jam62 (s : State) :
    exec .jam62 s = execImplied 2 id s := rfl
@[simp] theorem exec_rraIzx (b : Byte) (s : State) :
    exec (.rraIzx b) s = execModify (.izx b) 8 rorByte opRra s := rfl
@[simp] theorem exec_nopZp64 (b : Byte) (s : State) :
    exec (.nopZp64 b) s = execRead (.zp b) 3 false opDiscard s := rfl
@[simp] theorem exec_adcZp (b : Byte) (s : State) :
    exec (.adcZp b) s = execRead (.zp b) 3 true opAdc s := rfl
@[simp] theorem exec_rorZp (b : Byte) (s : State) :
    exec (.rorZp b) s = execModify (.zp b) 5 rorByte flagsRight s := rfl
@[simp] theorem exec_rraZp (b : Byte) (s : State) :
    exec (.rraZp b) s = execModify (.zp b) 5 rorByte opRra s := rfl
@[simp] theorem exec_pla (s : State) :
    exec .pla s = execImplied 4 opPla s := rfl
@[simp] theorem exec_adcImm (b : Byte) (s : State) :
    exec (.adcImm b) s = execRead (.imm b) 2 true opAdc s := rfl
@[simp] theorem exec_rorAcc (s : State) :
    exec .rorAcc s = execModify .acc 2 rorByte flagsRight s := rfl
@[simp] theorem exec_arr (b : Byte) (s : State) :
    exec (.arr b) s = execRead (.imm b) 2 false opArr s := rfl
@[simp] theorem exec_jmpInd (w : Word) (s : State) :
    exec (.jmpInd w) s = execJump (.ind w) 5 s := rfl
@[simp] theorem exec_adcAbs (w : Word) (s : State) :
    exec (.adcAbs w) s = execRead (.abs w) 4 true opAdc s := rfl
@[simp] theorem exec_rorAbs (w : Word) (s : State) :
    exec (.rorAbs w) s = execModify (.abs w) 6 rorByte flagsRight s := rfl
@[simp] theorem exec_rraAbs (w : Word) (s : State) :
    exec (.rraAbs w) s = execModify (.abs w) 6 rorByte opRra s := rfl
@[simp] theorem exec_bvs (b : Byte) (s : State) :
    exec (.bvs b) s = execBranch b 2 (fun p => p.v) s := rfl
@[simp] theorem exec_adcIzy (b : Byte) (s : State) :
    exec (.adcIzy b) s = execRead (.izy b) 5 true opAdc s := rfl
@[simp] theorem exec_jam72 (s : State) :
    exec .jam72 s = execImplied 2 id s := rfl
@[simp] theorem exec_rraIzy (b : Byte) (s : State) :
    exec (.rraIzy b) s = execModify (.izy b) 8 rorByte opRra s := rfl
@[simp] theorem exec_nopZpx74 (b : Byte) (s : State) :
    exec (.nopZpx74 b) s = execRead (.zpx b) 4 false opDiscard s := rfl
@[simp] theorem exec_adcZpx (b : Byte) (s : State) :
    exec (.adcZpx b) s = execRead (.zpx b) 4 true opAdc s := rfl
@[simp] theorem exec_rorZpx (b : Byte) (s : State) :
    exec (.rorZpx b) s = execModify (.zpx b) 6 rorByte flagsRight s := rfl
@[simp] theorem exec_rraZpx (b : Byte) (s : State) :
    exec (.rraZpx b) s = execModify (.zpx b) 6 rorByte opRra s := rfl
@[simp] theorem exec_sei (s : State) :
    exec .sei s = execImplied 2 (State.mapP fun p => { p with i := true }) s := rfl
@[simp] theorem exec_adcAby (w : Word) (s : State) :
    exec (.adcAby w) s = execRead (.aby w) 4 true opAdc s := rfl
@[simp] theorem exec_nopImp7A (s : State) :
    exec .nopImp7A s = execImplied 2 id s := rfl
@[simp] theorem exec_rraAby (w : Word) (s : State) :
    exec (.rraAby w) s = execModify (.aby w) 7 rorByte opRra s := rfl
@[simp] theorem exec_nopAbx7C (w : Word) (s : State) :
    exec (.nopAbx7C w) s = execRead (.abx w) 4 true opDiscard s := rfl
@[simp] theorem exec_adcAbx (w : Word) (s : State) :
    exec (.adcAbx w) s = execRead (.abx w) 4 true opAdc s := rfl
@[simp] theorem exec_rorAbx (w : Word) (s : State) :
    exec (.rorAbx w) s = execModify (.abx w) 7 rorByte flagsRight s := rfl
@[simp] theorem exec_rraAbx (w : Word) (s : State) :
    exec (.rraAbx w) s = execModify (.abx w) 7 rorByte opRra s := rfl
@[simp] theorem exec_nopImm80 (b : Byte) (s : State) :
    exec (.nopImm80 b) s = execRead (.imm b) 2 false opDiscard s := rfl
@[simp] theorem exec_staIzx (b : Byte) (s : State) :
    exec (.staIzx b) s = execStore (.izx b) 6 Cpu.a s := rfl
@[simp] theorem exec_nopImm82 (b : Byte) (s : State) :
    exec (.nopImm82 b) s = execRead (.imm b) 2 false opDiscard s := rfl
@[simp] theorem exec_saxIzx (b : Byte) (s : State) :
    exec (.saxIzx b) s = execStore (.izx b) 6 (fun c => c.a &&& c.x) s := rfl
@[simp] theorem exec_styZp (b : Byte) (s : State) :
    exec (.styZp b) s = execStore (.zp b) 3 Cpu.y s := rfl
@[simp] theorem exec_staZp (b : Byte) (s : State) :
    exec (.staZp b) s = execStore (.zp b) 3 Cpu.a s := rfl
@[simp] theorem exec_stxZp (b : Byte) (s : State) :
    exec (.stxZp b) s = execStore (.zp b) 3 Cpu.x s := rfl
@[simp] theorem exec_saxZp (b : Byte) (s : State) :
    exec (.saxZp b) s = execStore (.zp b) 3 (fun c => c.a &&& c.x) s := rfl
@[simp] theorem exec_dey (s : State) :
    exec .dey s = execImplied 2 opDey s := rfl
@[simp] theorem exec_nopImm89 (b : Byte) (s : State) :
    exec (.nopImm89 b) s = execRead (.imm b) 2 false opDiscard s := rfl
@[simp] theorem exec_txa (s : State) :
    exec .txa s = execImplied 2 opTxa s := rfl
@[simp] theorem exec_ane (b : Byte) (s : State) :
    exec (.ane b) s = execRead (.imm b) 2 false opDiscard s := rfl
@[simp] theorem exec_styAbs (w : Word) (s : State) :
    exec (.styAbs w) s = execStore (.abs w) 4 Cpu.y s := rfl
@[simp] theorem exec_staAbs (w : Word) (s : State) :
    exec (.staAbs w) s = execStore (.abs w) 4 Cpu.a s := rfl
@[simp] theorem exec_stxAbs (w : Word) (s : State) :
    exec (.stxAbs w) s = execStore (.abs w) 4 Cpu.x s := rfl
@[simp] theorem exec_saxAbs (w : Word) (s : State) :
    exec (.saxAbs w) s = execStore (.abs w) 4 (fun c => c.a &&& c.x) s := rfl
@[simp] theorem exec_bcc (b : Byte) (s : State) :
    exec (.bcc b) s = execBranch b 2 (fun p => !p.c) s := rfl
@[simp] theorem exec_staIzy (b : Byte) (s : State) :
    exec (.staIzy b) s = execStore (.izy b) 6 Cpu.a s := rfl
@[simp] theorem exec_jam92 (s : State) :
    exec .jam92 s = execImplied 2 id s := rfl
@[simp] theorem exec_shaIzy (b : Byte) (s : State) :
    exec (.shaIzy b) s = execNoAccess (.izy b) 6 s := rfl
@[simp] theorem exec_styZpx (b : Byte) (s : State) :
    exec (.styZpx b) s = execStore (.zpx b) 4 Cpu.y s := rfl
@[simp] theorem exec_staZpx (b : Byte) (s : State) :
    exec (.staZpx b) s = execStore (.zpx b) 4 Cpu.a s := rfl
@[simp] theorem exec_stxZpy (b : Byte) (s : State) :
    exec (.stxZpy b) s = execStore (.zpy b) 4 Cpu.x s := rfl
@[simp] theorem exec_saxZpy (b : Byte) (s : State) :
    exec (.saxZpy b) s = execStore (.zpy b) 4 (fun c => c.a &&& c.x) s := rfl
@[simp] theorem exec_tya (s : State) :
    exec .tya s = execImplied 2 opTya s := rfl
@[simp] theorem exec_staAby (w : Word) (s : State) :
    exec (.staAby w) s = execStore (.aby w) 5 Cpu.a s := rfl
@[simp] theorem exec_txs (s : State) :
    exec .txs s = execImplied 2 opTxs s := rfl
@[simp] theorem exec_tas (w : Word) (s : State) :
    exec (.tas w) s = execNoAccess (.aby w) 5 s := rfl
@[simp] theorem exec_shy (w : Word) (s : State) :
    exec (.shy w) s = execNoAccess (.abx w) 5 s := rfl
@[simp] theorem exec_staAbx (w : Word) (s : State) :
    exec (.staAbx w) s = execStore (.abx w) 5 Cpu.a s := rfl
@[simp] theorem exec_shx (w : Word) (s : State) :
    exec (.shx w) s = execNoAccess (.aby w) 5 s := rfl
@[simp] theorem exec_shaAby (w : Word) (s : State) :
    exec (.shaAby w) s = execNoAccess (.aby w) 5 s := rfl
@[simp] theorem exec_ldyImm (b : Byte) (s : State) :
    exec (.ldyImm b) s = execRead (.imm b) 2 true opLdy s := rfl
@[simp] theorem exec_ldaIzx (b : Byte) (s : State) :
    exec (.ldaIzx b) s = execRead (.izx b) 6 true opLda s := rfl
@[simp] theorem exec_ldxImm (b : Byte) (s : State) :
    exec (.ldxImm b) s = execRead (.imm b) 2 true opLdx s := rfl
@[simp] theorem exec_laxIzx (b : Byte) (s : State) :
    exec (.laxIzx b) s = execRead (.izx b) 6 true opLax s := rfl
@[simp] theorem exec_ldyZp (b : Byte) (s : State) :
    exec (.ldyZp b) s = execRead (.zp b) 3 true opLdy s := rfl
@[simp] theorem exec_ldaZp (b : Byte) (s : State) :
    exec (.ldaZp b) s = execRead (.zp b) 3 true opLda s := rfl
@[simp] theorem exec_ldxZp (b : Byte) (s : State) :
    exec (.ldxZp b) s = execRead (.zp b) 3 true opLdx s := rfl
@[simp] theorem exec_laxZp (b : Byte) (s : State) :
    exec (.laxZp b) s = execRead (.zp b) 3 true opLax s := rfl
@[simp] theorem exec_tay (s : State) :
    exec .tay s = execImplied 2 opTay s := rfl
@[simp] theorem exec_ldaImm (b : Byte) (s : State) :
    exec (.ldaImm b) s = execRead (.imm b) 2 true opLda s := rfl
@[simp] theorem exec_tax (s : State) :
    exec .tax s = execImplied 2 opTax s := rfl
@[simp] theorem exec_lxa (b : Byte) (s : State) :
    exec (.lxa b) s = execRead (.imm b) 2 false opDiscard s := rfl
@[simp] theorem exec_ldyAbs (w : Word) (s : State) :
    exec (.ldyAbs w) s = execRead (.abs w) 4 true opLdy s := rfl
@[simp] theorem exec_ldaAbs (w : Word) (s : State) :
    exec (.ldaAbs w) s = execRead (.abs w) 4 true opLda s := rfl
@[simp] theorem exec_ldxAbs (w : Word) (s : State) :
    exec (.ldxAbs w) s = execRead (.abs w) 4 true opLdx s := rfl
@[simp] theorem exec_laxAbs (w : Word) (s : State) :
    exec (.laxAbs w) s = execRead (.abs w) 4 true opLax s := rfl
@[simp] theorem exec_bcs (b : Byte) (s : State) :
    exec (.bcs b) s = execBranch b 2 (fun p => p.c) s := rfl
@[simp] theorem exec_ldaIzy (b : Byte) (s : State) :
    exec (.ldaIzy b) s = execRead (.izy b) 5 true opLda s := rfl
@[simp] theorem exec_jamB2 (s : State) :
    exec .jamB2 s = execImplied 2 id s := rfl
@[simp] theorem exec_laxIzy (b : Byte) (s : State) :
    exec (.laxIzy b) s = execRead (.izy b) 5 true opLax s := rfl
@[simp] theorem exec_ldyZpx (b : Byte) (s : State) :
    exec (.ldyZpx b) s = execRead (.zpx b) 4 true opLdy s := rfl
@[simp] theorem exec_ldaZpx (b : Byte) (s : State) :
    exec (.ldaZpx b) s = execRead (.zpx b) 4 true opLda s := rfl
@[simp] theorem exec_ldxZpy (b : Byte) (s : State) :
    exec (.ldxZpy b) s = execRead (.zpy b) 4 true opLdx s := rfl
@[simp] theorem exec_laxZpy (b : Byte) (s : State) :
    exec (.laxZpy b) s = execRead (.zpy b) 4 true opLax s := rfl
@[simp] theorem exec_clv (s : State) :
    exec .clv s = execImplied 2 (State.mapP fun p => { p with v := false }) s := rfl
@[simp] theorem exec_ldaAby (w : Word) (s : State) :
    exec (.ldaAby w) s = execRead (.aby w) 4 true opLda s := rfl
@[simp] theorem exec_tsx (s : State) :
    exec .tsx s = execImplied 2 opTsx s := rfl
@[simp] theorem exec_las (w : Word) (s : State) :
    exec (.las w) s = execRead (.aby w) 4 true opDiscard s := rfl
@[simp] theorem exec_ldyAbx (w : Word) (s : State) :
    exec (.ldyAbx w) s = execRead (.abx w) 4 true opLdy s := rfl
@[simp] theorem exec_ldaAbx (w : Word) (s : State) :
    exec (.ldaAbx w) s = execRead (.abx w) 4 true opLda s := rfl
@[simp] theorem exec_ldxAby (w : Word) (s : State) :
    exec (.ldxAby w) s = execRead (.aby w) 4 true opLdx s := rfl
@[simp] theorem exec_laxAby (w : Word) (s : State) :
    exec (.laxAby w) s = execRead (.aby w) 4 true opLax s := rfl
@[simp] theorem exec_cpyImm (b : Byte) (s : State) :
    exec (.cpyImm b) s = execRead (.imm b) 2 false opCpy s := rfl
@[simp] theorem exec_cmpIzx (b : Byte) (s : State) :
    exec (.cmpIzx b) s = execRead (.izx b) 6 true opCmp s := rfl
@[simp] theorem exec_nopImmC2 (b : Byte) (s : State) :
    exec (.nopImmC2 b) s = execRead (.imm b) 2 false opDiscard s := rfl
@[simp] theorem exec_dcpIzx (b : Byte) (s : State) :
    exec (.dcpIzx b) s = execModify (.izx b) 8 decByte opDcp s := rfl
@[simp] theorem exec_cpyZp (b : Byte) (s : State) :
    exec (.cpyZp b) s = execRead (.zp b) 3 false opCpy s := rfl
@[simp] theorem exec_cmpZp (b : Byte) (s : State) :
    exec (.cmpZp b) s = execRead (.zp b) 3 true opCmp s := rfl
@[simp] theorem exec_decZp (b : Byte) (s : State) :
    exec (.decZp b) s = execModify (.zp b) 5 decByte flagsOfResult s := rfl
@[simp] theorem exec_dcpZp (b : Byte) (s : State) :
    exec (.dcpZp b) s = execModify (.zp b) 5 decByte opDcp s := rfl
@[simp] theorem exec_iny (s : State) :
    exec .iny s = execImplied 2 opIny s := rfl
@[simp] theorem exec_cmpImm (b : Byte) (s : State) :
    exec (.cmpImm b) s = execRead (.imm b) 2 true opCmp s := rfl
@[simp] theorem exec_dex (s : State) :
    exec .dex s = execImplied 2 opDex s := rfl
@[simp] theorem exec_axs (b : Byte) (s : State) :
    exec (.axs b) s = execRead (.imm b) 2 false opAxs s := rfl
@[simp] theorem exec_cpyAbs (w : Word) (s : State) :
    exec (.cpyAbs w) s = execRead (.abs w) 4 false opCpy s := rfl
@[simp] theorem exec_cmpAbs (w : Word) (s : State) :
    exec (.cmpAbs w) s = execRead (.abs w) 4 true opCmp s := rfl
@[simp] theorem exec_decAbs (w : Word) (s : State) :
    exec (.decAbs w) s = execModify (.abs w) 6 decByte flagsOfResult s := rfl
@[simp] theorem exec_dcpAbs (w : Word) (s : State) :
    exec (.dcpAbs w) s = execModify (.abs w) 6 decByte opDcp s := rfl
@[simp] theorem exec_bne (b : Byte) (s : State) :
    exec (.bne b) s = execBranch b 2 (fun p => !p.z) s := rfl
@[simp] theorem exec_cmpIzy (b : Byte) (s : State) :
    exec (.cmpIzy b) s = execRead (.izy b) 5 true opCmp s := rfl
@[simp] theorem exec_jamD2 (s : State) :
    exec .jamD2 s = execImplied 2 id s := rfl
@[simp] theorem exec_dcpIzy (b : Byte) (s : State) :
    exec (.dcpIzy b) s = execModify (.izy b) 8 decByte opDcp s := rfl
@[simp] theorem exec_nopZpxD4 (b : Byte) (s : State) :
    exec (.nopZpxD4 b) s = execRead (.zpx b) 4 false opDiscard s := rfl
@[simp] theorem exec_cmpZpx (b : Byte) (s : State) :
    exec (.cmpZpx b) s = execRead (.zpx b) 4 true opCmp s := rfl
@[simp] theorem exec_decZpx (b : Byte) (s : State) :
    exec (.decZpx b) s = execModify (.zpx b) 6 decByte flagsOfResult s := rfl
@[simp] theorem exec_dcpZpx (b : Byte) (s : State) :
    exec (.dcpZpx b) s = execModify (.zpx b) 6 decByte opDcp s := rfl
@[simp] theorem exec_cld (s : State) :
    exec .cld s = execImplied 2 (State.mapP fun p => { p with d := false }) s := rfl
@[simp] theorem exec_cmpAby (w : Word) (s : State) :
    exec (.cmpAby w) s = execRead (.aby w) 4 true opCmp s := rfl
@[simp] theorem exec_nopImpDA (s : State) :
    exec .nopImpDA s = execImplied 2 id s := rfl
@[simp] theorem exec_dcpAby (w : Word) (s : State) :
    exec (.dcpAby w) s = execModify (.aby w) 7 decByte opDcp s := rfl
@[simp] theorem exec_nopAbxDC (w : Word) (s : State) :
    exec (.nopAbxDC w) s = execRead (.abx w) 4 true opDiscard s := rfl
@[simp] theorem exec_cmpAbx (w : Word) (s : State) :
    exec (.cmpAbx w) s = execRead (.abx w) 4 true opCmp s := rfl
@[simp] theorem exec_decAbx (w : Word) (s : State) :
    exec (.decAbx w) s = execModify (.abx w) 7 decByte flagsOfResult s := rfl
@[simp] theorem exec_dcpAbx (w : Word) (s : State) :
    exec (.dcpAbx w) s = execModify (.abx w) 7 decByte opDcp s := rfl
@[simp] theorem exec_cpxImm (b : Byte) (s : State) :
    exec (.cpxImm b) s = execRead (.imm b) 2 false opCpx s := rfl
@[simp] theorem exec_sbcIzx (b : Byte) (s : State) :
    exec (.sbcIzx b) s = execRead (.izx b) 6 true opSbc s := rfl
@[simp] theorem exec_nopImmE2 (b : Byte) (s : State) :
    exec (.nopImmE2 b) s = execRead (.imm b) 2 false opDiscard s := rfl
@[simp] theorem exec_iscIzx (b : Byte) (s : State) :
    exec (.iscIzx b) s = execModify (.izx b) 8 incByte opIsc s := rfl
@[simp] theorem exec_cpxZp (b : Byte) (s : State) :
    exec (.cpxZp b) s = execRead (.zp b) 3 false opCpx s := rfl
@[simp] theorem exec_sbcZp (b : Byte) (s : State) :
    exec (.sbcZp b) s = execRead (.zp b) 3 true opSbc s := rfl
@[simp] theorem exec_incZp (b : Byte) (s : State) :
    exec (.incZp b) s = execModify (.zp b) 5 incByte flagsOfResult s := rfl
@[simp] theorem exec_iscZp (b : Byte) (s : State) :
    exec (.iscZp b) s = execModify (.zp b) 5 incByte opIsc s := rfl
@[simp] theorem exec_inx (s : State) :
    exec .inx s = execImplied 2 opInx s := rfl
@[simp] theorem exec_sbcImm (b : Byte) (s : State) :
    exec (.sbcImm b) s = execRead (.imm b) 2 true opSbc s := rfl
@[simp] theorem exec_nop (s : State) :
    exec .nop s = execImplied 2 id s := rfl
@[simp] theorem exec_sbcImmEB (b : Byte) (s : State) :
    exec (.sbcImmEB b) s = execRead (.imm b) 2 true opSbc s := rfl
@[simp] theorem exec_cpxAbs (w : Word) (s : State) :
    exec (.cpxAbs w) s = execRead (.abs w) 4 false opCpx s := rfl
@[simp] theorem exec_sbcAbs (w : Word) (s : State) :
    exec (.sbcAbs w) s = execRead (.abs w) 4 true opSbc s := rfl
@[simp] theorem exec_incAbs (w : Word) (s : State) :
    exec (.incAbs w) s = execModify (.abs w) 6 incByte flagsOfResult s := rfl
@[simp] theorem exec_iscAbs (w : Word) (s : State) :
    exec (.iscAbs w) s = execModify (.abs w) 6 incByte opIsc s := rfl
@[simp] theorem exec_beq (b : Byte) (s : State) :
    exec (.beq b) s = execBranch b 2 (fun p => p.z) s := rfl
@[simp] theorem exec_sbcIzy (b : Byte) (s : State) :
    exec (.sbcIzy b) s = execRead (.izy b) 5 true opSbc s := rfl
@[simp] theorem exec_jamF2 (s : State) :
    exec .jamF2 s = execImplied 2 id s := rfl
@[simp] theorem exec_iscIzy (b : Byte) (s : State) :
    exec (.iscIzy b) s = execModify (.izy b) 8 incByte opIsc s := rfl
@[simp] theorem exec_nopZpxF4 (b : Byte) (s : State) :
    exec (.nopZpxF4 b) s = execRead (.zpx b) 4 false opDiscard s := rfl
@[simp] theorem exec_sbcZpx (b : Byte) (s : State) :
    exec (.sbcZpx b) s = execRead (.zpx b) 4 true opSbc s := rfl
@[simp] theorem exec_incZpx (b : Byte) (s : State) :
    exec (.incZpx b) s = execModify (.zpx b) 6 incByte flagsOfResult s := rfl
@[simp] theorem exec_iscZpx (b : Byte) (s : State) :
    exec (.iscZpx b) s = execModify (.zpx b) 6 incByte opIsc s := rfl
@[simp] theorem exec_sed (s : State) :
    exec .sed s = execImplied 2 (State.mapP fun p => { p with d := true }) s := rfl
@[simp] theorem exec_sbcAby (w : Word) (s : State) :
    exec (.sbcAby w) s = execRead (.aby w) 4 true opSbc s := rfl
@[simp] theorem exec_nopImpFA (s : State) :
    exec .nopImpFA s = execImplied 2 id s := rfl
@[simp] theorem exec_iscAby (w : Word) (s : State) :
    exec (.iscAby w) s = execModify (.aby w) 7 incByte opIsc s := rfl
@[simp] theorem exec_nopAbxFC (w : Word) (s : State) :
    exec (.nopAbxFC w) s = execRead (.abx w) 4 true opDiscard s := rfl
@[simp] theorem exec_sbcAbx (w : Word) (s : State) :
    exec (.sbcAbx w) s = execRead (.abx w) 4 true opSbc s := rfl
@[simp] theorem exec_incAbx (w : Word) (s : State) :
    exec (.incAbx w) s = execModify (.abx w) 7 incByte flagsOfResult s := rfl
@[simp] theorem exec_iscAbx (w : Word) (s : State) :
    exec (.iscAbx w) s = execModify (.abx w) 7 incByte opIsc s := rfl

end Sys2Proof.Machine
end

