-- ==== Sys2Proof/Laws/Ops.lean ====
section
/-! SUPPORT. What the stack operations, the traps, the addressing modes and every instruction can do, said once. -/

namespace Sys2Proof.Machine

/-! The stack and the traps. -/

@[simp] theorem push_cpu (v : Byte) (s : State) : (push v s).cpu = { s.cpu with s := s.cpu.s - 1 } := by simp [push]

@[simp] theorem push_inputs (v : Byte) (s : State) : (push v s).inputs = s.inputs := by simp [push]
@[simp] theorem push_outputs (v : Byte) (s : State) : (push v s).outputs = s.outputs := by simp [push]
@[simp] theorem push_params (v : Byte) (s : State) : (push v s).params = s.params := by simp [push]

theorem push_inner {s : State} (v : Byte) (h : Inner s) : Inner (push v s) :=
  (memWrite_inner (stackAddr s.cpu.s) v h).ofEq rfl rfl rfl rfl

@[simp] theorem pop_cpu (s : State) : (pop s).2.cpu = { s.cpu with s := s.cpu.s + 1 } := by simp [pop]

/-- A pop is a bus read but for the stack pointer. -/
theorem pop_frame (s : State) : ReadFrame s (pop s).2 := ReadFrame.ofCpu (memRead_frame _ _)

theorem pop_inner {s : State} (h : Inner s) : Inner (pop s).2 := h.ofReadFrame (pop_frame s)

theorem read16_frame (a : Word) (s : State) : ReadFrame s (read16 a s).2 := (memRead_frame _ _).trans (memRead_frame _ _)

@[simp] theorem read16_cpu (a : Word) (s : State) : (read16 a s).2.cpu = s.cpu := by simp [read16]
@[simp] theorem read16_inputs (a : Word) (s : State) : (read16 a s).2.inputs = s.inputs := by simp [read16]
@[simp] theorem read16_outputs (a : Word) (s : State) : (read16 a s).2.outputs = s.outputs := by simp [read16]
@[simp] theorem read16_params (a : Word) (s : State) : (read16 a s).2.params = s.params := by simp [read16]

/-- The two pushes of a word move S by 2. -/
@[simp] theorem pushWord_cpu (w : Word) (s : State) :
    (pushWord w s).cpu = { s.cpu with s := s.cpu.s - 1 - 1 } := by simp [pushWord]

theorem pushWord_inner {s : State} (w : Word) (h : Inner s) : Inner (pushWord w s) := push_inner _ (push_inner _ h)

/-- The CPU after a trap: S down by 3, Interrupt-disable set, PC from the vector (R505). -/
theorem trapEntry_cpu (ret : Word) (status : Byte) (vector : Word) (s : State) :
    (trapEntry ret status vector s).cpu = { s.cpu with
      s := s.cpu.s - 1 - 1 - 1, p := { s.cpu.p with i := true }, pc := (trapEntry ret status vector s).cpu.pc } := by
  simp [trapEntry]

@[simp] theorem trapEntry_inputs (ret : Word) (status : Byte) (vector : Word) (s : State) :
    (trapEntry ret status vector s).inputs = s.inputs := by simp [trapEntry, pushWord]
@[simp] theorem trapEntry_outputs (ret : Word) (status : Byte) (vector : Word) (s : State) :
    (trapEntry ret status vector s).outputs = s.outputs := by simp [trapEntry, pushWord]
@[simp] theorem trapEntry_params (ret : Word) (status : Byte) (vector : Word) (s : State) :
    (trapEntry ret status vector s).params = s.params := by simp [trapEntry, pushWord]

theorem trapEntry_inner {s : State} (ret : Word) (status : Byte) (vector : Word) (h : Inner s) :
    Inner (trapEntry ret status vector s) := by
  have h1 : Inner (push status (pushWord ret s)) := push_inner _ (pushWord_inner _ h)
  have h2 : Inner ((push status (pushWord ret s)).setP { (push status (pushWord ret s)).cpu.p with i := true }) :=
    h1.ofEq rfl rfl rfl rfl
  exact (h2.ofReadFrame (read16_frame vector _)).ofEq rfl rfl rfl rfl

theorem trapReturn_frame (s : State) : ReadFrame s (trapReturn s) := by
  have h1 : ReadFrame s ((pop s).2.setP (Flags.ofByte (pop s).1)) := (pop_frame s).withCpu _
  exact ((h1.trans (pop_frame _)).trans (pop_frame _)).withCpu _

/-! The addressing modes. -/

/-- What a mode's pointer reads can change. -/
theorem resolve_frame (o : Operand) (s : State) : ReadFrame s (resolve o s).state := by
  cases o <;> first
    | exact ReadFrame.refl s
    | exact (memRead_frame _ _).trans (memRead_frame _ _)

@[simp] theorem resolve_cpu (o : Operand) (s : State) : (resolve o s).state.cpu = s.cpu := by
  cases o <;> simp [resolve, jumpPointer, zeroPagePointer]

@[simp] theorem readPlace_cpu (p : Place) (s : State) : (readPlace p s).2.cpu = s.cpu := by
  cases p <;> simp [readPlace]

theorem readPlace_frame (p : Place) (s : State) : ReadFrame s (readPlace p s).2 := by
  cases p <;> first | exact ReadFrame.refl s | exact memRead_frame _ s

theorem writePlace_inner {s : State} (p : Place) (v : Byte) (h : Inner s) : Inner (writePlace p v s) := by
  cases p <;> first | exact h | exact h.ofEq rfl rfl rfl rfl | exact memWrite_inner _ v h

theorem writePlace_rest (p : Place) (v : Byte) (s : State) :
    (writePlace p v s).inputs = s.inputs ∧ (writePlace p v s).outputs = s.outputs
      ∧ (writePlace p v s).params = s.params := by
  cases p <;> simp [writePlace]

/-! Every instruction. -/

/-- What every instruction does to the parts of the state it does not compute with: it goes on, keeps `Inner`, leaves
inputs, outputs and parameters alone, and owes at most 8 cycles (R27). -/
structure Goes (s : State) (r : Result) : Prop where
  next : ∃ t, r = .next t
  inner : ∀ t, r = .next t → Inner s → Inner t
  inputs : ∀ t, r = .next t → t.inputs = s.inputs
  outputs : ∀ t, r = .next t → t.outputs = s.outputs
  params : ∀ t, r = .next t → t.params = s.params
  cycles : ∀ t, r = .next t → t.cpu.cycles ≤ 8

theorem Goes.finish {s t : State} {n : Nat} (hn : n ≤ 8) (hi : Inner s → Inner t) (h1 : t.inputs = s.inputs)
    (h2 : t.outputs = s.outputs) (h3 : t.params = s.params) : Goes s (finish n t) := by
  unfold Machine.finish
  refine ⟨⟨_, rfl⟩, ?_, ?_, ?_, ?_, ?_⟩ <;> intro u hu <;> injection hu with hu <;> subst hu
  · exact fun h => (hi h).ofEq rfl rfl rfl rfl
  · simpa using h1
  · simpa using h2
  · simpa using h3
  · simpa using hn

/-- A function of the state that changes only the CPU. -/
def OnlyCpu (f : State → State) : Prop := ∀ s, f s = { s with cpu := (f s).cpu }

theorem OnlyCpu.inner {f : State → State} (h : OnlyCpu f) {s : State} (k : Inner s) : Inner (f s) := by
  rw [h s]; exact k.ofEq rfl rfl rfl rfl

theorem goes_execImplied {base : Nat} {op : State → State} (s : State) (hb : base ≤ 8)
    (h : (∀ s, Inner s → Inner (op s)) ∧
      ∀ s, (op s).inputs = s.inputs ∧ (op s).outputs = s.outputs ∧ (op s).params = s.params) :
    Goes s (execImplied base op s) :=
  Goes.finish hb (h.1 s) (h.2 s).1 (h.2 s).2.1 (h.2 s).2.2

theorem goes_execRead (o : Operand) {base : Nat} (x : Bool) {op : Byte → State → State} (s : State) (hb : base ≤ 7)
    (ho : ∀ m, OnlyCpu (op m)) : Goes s (execRead o base x op s) := by
  have hf : ReadFrame s (readPlace (resolve o s).place (resolve o s).state).2 :=
    (resolve_frame o s).trans (readPlace_frame _ _)
  have hc : ((resolve o s).extra && x).toNat ≤ 1 := Bool.toNat_le _
  unfold execRead
  refine Goes.finish (by omega) (fun h => (ho _).inner (h.ofReadFrame hf)) ?_ ?_ ?_ <;> (rw [ho, hf])

theorem goes_execStore (o : Operand) {base : Nat} (value : Cpu → Byte) (s : State) (hb : base ≤ 8) :
    Goes s (execStore o base value s) := by
  have hf := resolve_frame o s
  have hw := writePlace_rest (resolve o s).place (value (resolve o s).state.cpu) (resolve o s).state
  unfold execStore
  refine Goes.finish hb (fun h => writePlace_inner _ _ (h.ofReadFrame hf)) ?_ ?_ ?_
  · rw [hw.1, hf]
  · rw [hw.2.1, hf]
  · rw [hw.2.2, hf]

theorem goes_execModify (o : Operand) {base : Nat} (f : Byte → Bool → Byte) {op : Byte → Byte → State → State} (s : State)
    (hb : base ≤ 8) (ho : ∀ m r, OnlyCpu (op m r)) : Goes s (execModify o base f op s) := by
  have hf : ReadFrame s (readPlace (resolve o s).place (resolve o s).state).2 :=
    (resolve_frame o s).trans (readPlace_frame _ _)
  unfold execModify
  refine Goes.finish hb (fun h => (ho _ _).inner (writePlace_inner _ _ (h.ofReadFrame hf))) ?_ ?_ ?_
  · rw [ho]; rw [(writePlace_rest _ _ _).1, hf]
  · rw [ho]; rw [(writePlace_rest _ _ _).2.1, hf]
  · rw [ho]; rw [(writePlace_rest _ _ _).2.2, hf]

theorem goes_execNoAccess (o : Operand) {base : Nat} (s : State) (hb : base ≤ 8) : Goes s (execNoAccess o base s) := by
  have hf := resolve_frame o s
  unfold execNoAccess
  refine Goes.finish hb (fun h => h.ofReadFrame hf) ?_ ?_ ?_ <;> rw [hf]

theorem goes_execJump (o : Operand) {base : Nat} (s : State) (hb : base ≤ 8) : Goes s (execJump o base s) := by
  have hf := resolve_frame o s
  unfold execJump
  refine Goes.finish hb (fun h => (h.ofReadFrame hf).ofEq rfl rfl rfl rfl) ?_ ?_ ?_ <;> simp <;> rw [hf]

theorem goes_execBranch (b : Byte) {base : Nat} (cond : Flags → Bool) (s : State) (hb : base ≤ 6) :
    Goes s (execBranch b base cond s) := by
  unfold execBranch
  simp only
  split
  · refine Goes.finish ?_ (fun h => h.ofEq rfl rfl rfl rfl) rfl rfl rfl
    have := Bool.toNat_le (decide (page (resolve (.rel b) s).place.addr ≠ page s.cpu.pc))
    omega
  · exact Goes.finish (by omega) id rfl rfl rfl

theorem goes_onlyCpu {op : State → State} (h : OnlyCpu op) :
    (∀ s, Inner s → Inner (op s)) ∧
    ∀ s, (op s).inputs = s.inputs ∧ (op s).outputs = s.outputs ∧ (op s).params = s.params :=
  ⟨fun _ k => h.inner k, fun s => by rw [h s]; exact ⟨rfl, rfl, rfl⟩⟩

theorem goes_readFrame {op : State → State} (h : ∀ s, ReadFrame s (op s)) :
    (∀ s, Inner s → Inner (op s)) ∧
    ∀ s, (op s).inputs = s.inputs ∧ (op s).outputs = s.outputs ∧ (op s).params = s.params :=
  ⟨fun s k => k.ofReadFrame (h s), fun s => by rw [h s]; exact ⟨rfl, rfl, rfl⟩⟩

theorem goes_opPha :
    (∀ s, Inner s → Inner (opPha s)) ∧
    ∀ s, (opPha s).inputs = s.inputs ∧ (opPha s).outputs = s.outputs ∧ (opPha s).params = s.params :=
  ⟨fun _ h => push_inner _ h, fun s => by simp [opPha]⟩

theorem goes_opPhp :
    (∀ s, Inner s → Inner (opPhp s)) ∧
    ∀ s, (opPhp s).inputs = s.inputs ∧ (opPhp s).outputs = s.outputs ∧ (opPhp s).params = s.params :=
  ⟨fun _ h => push_inner _ h, fun s => by simp [opPhp]⟩

theorem goes_opJsr (w : Word) :
    (∀ s, Inner s → Inner (opJsr w s)) ∧
    ∀ s, (opJsr w s).inputs = s.inputs ∧ (opJsr w s).outputs = s.outputs ∧ (opJsr w s).params = s.params :=
  ⟨fun _ h => (pushWord_inner _ h).ofEq rfl rfl rfl rfl, fun s => by simp [opJsr, pushWord]⟩

theorem goes_opBrk :
    (∀ s, Inner s → Inner (opBrk s)) ∧
    ∀ s, (opBrk s).inputs = s.inputs ∧ (opBrk s).outputs = s.outputs ∧ (opBrk s).params = s.params :=
  ⟨fun _ h => trapEntry_inner _ _ _ h, fun s => by simp [opBrk]⟩

theorem opRts_frame (s : State) : ReadFrame s (opRts s) := ((pop_frame s).trans (pop_frame _)).withCpu _
theorem opPla_frame (s : State) : ReadFrame s (opPla s) := (pop_frame s).withCpu _
theorem opPlp_frame (s : State) : ReadFrame s (opPlp s) := (pop_frame s).withCpu _

/-- Every instruction goes on from every state. -/
theorem exec_goes (i : Instr) (s : State) : Goes s (exec i s) := by
  cases i <;> simp <;> first
    | (with_reducible refine goes_execRead _ _ s ?_ ?_) <;> [decide; exact fun m s => rfl]
    | (with_reducible refine goes_execModify _ _ s ?_ ?_) <;> [decide; exact fun m r s => rfl]
    | (with_reducible refine goes_execStore _ _ s ?_); decide
    | (with_reducible refine goes_execNoAccess _ s ?_); decide
    | (with_reducible refine goes_execBranch _ _ s ?_); decide
    | (with_reducible refine goes_execJump _ s ?_); decide
    | (with_reducible refine goes_execImplied s ?_ (goes_opJsr _)); decide
    | (with_reducible refine goes_execImplied s ?_ goes_opBrk); decide
    | (with_reducible refine goes_execImplied s ?_ goes_opPha); decide
    | (with_reducible refine goes_execImplied s ?_ goes_opPhp); decide
    | (with_reducible refine goes_execImplied s ?_ (goes_readFrame opRts_frame)); decide
    | (with_reducible refine goes_execImplied s ?_ (goes_readFrame opPla_frame)); decide
    | (with_reducible refine goes_execImplied s ?_ (goes_readFrame opPlp_frame)); decide
    | (with_reducible refine goes_execImplied s ?_ (goes_readFrame trapReturn_frame)); decide
    | (with_reducible refine goes_execImplied s ?_ (goes_onlyCpu ?_)) <;> [decide; exact fun s => rfl]

end Sys2Proof.Machine
end

