-- ==== Sys2Proof/Laws/Raster.lean ====
section
/-! SUPPORT. What a PPU tick can do, said once: which fields its steps may change, the position, the invariant. -/

namespace Sys2Proof.Machine

/-- All that the steps of R380 between OddFrameSkip and Advance can change: the status flags, `v`, the sprite and
background pipelines, the NMI request, the frame, the scanline-end pulse and the count of cartridge answers. -/
def StepsFrame (s t : State) : Prop :=
  t = { s with
    ppu := { s.ppu with
      vblank := t.ppu.vblank, overflow := t.ppu.overflow, spr0Hit := t.ppu.spr0Hit, v := t.ppu.v
      slots := t.ppu.slots, spriteCount := t.ppu.spriteCount, spr0Possible := t.ppu.spr0Possible
      spr0Rendered := t.ppu.spr0Rendered, nextId := t.ppu.nextId, nextAttr := t.ppu.nextAttr, nextLo := t.ppu.nextLo
      nextHi := t.ppu.nextHi, bgPatLo := t.ppu.bgPatLo, bgPatHi := t.ppu.bgPatHi, bgAttLo := t.ppu.bgAttLo
      bgAttHi := t.ppu.bgAttHi, nmiRequest := t.ppu.nmiRequest, frame := t.ppu.frame }
    cart := { s.cart with asks := t.cart.asks }
    outputs := { s.outputs with scanlineEnd := t.outputs.scanlineEnd } }

theorem StepsFrame.refl (s : State) : StepsFrame s s := rfl

theorem StepsFrame.trans {s t u : State} (h : StepsFrame s t) (k : StepsFrame t u) : StepsFrame s u := by
  unfold StepsFrame at *
  rw [k, h]

theorem StepsFrame.doIf {c : Bool} {f : State → State} {s t : State} (h : StepsFrame s t)
    (hf : ∀ u, StepsFrame u (f u)) : StepsFrame s (doIf c f t) := by
  unfold Machine.doIf
  split
  · exact h.trans (hf t)
  · exact h

theorem ppuRead_steps (a : Word) (s : State) : StepsFrame s (ppuRead a s).2 := by
  rw [ppuRead_state]; rfl

theorem preRenderClear_steps (s : State) : StepsFrame s (s.mapPpu preRenderClear) := rfl
theorem vblankSet_steps (s : State) : StepsFrame s (s.mapPpu vblankSet) := rfl
theorem shiftBackground_steps (s : State) : StepsFrame s (s.mapPpu shiftBackground) := rfl
theorem updateSprites_steps (s : State) : StepsFrame s (s.mapPpu updateSprites) := rfl
theorem evaluateSprites_steps (s : State) : StepsFrame s (s.mapPpu evaluateSprites) := rfl
theorem loadShifters_steps (s : State) : StepsFrame s (s.mapPpu loadShifters) := rfl

theorem incrementX_steps (s : State) : StepsFrame s (s.mapPpu incrementX) := by
  unfold StepsFrame State.mapPpu incrementX
  split
  · split <;> rfl
  · rfl

theorem incrementY_steps (s : State) : StepsFrame s (s.mapPpu incrementY) := by
  unfold StepsFrame State.mapPpu incrementY
  split
  · split
    · rfl
    · split
      · rfl
      · split <;> rfl
  · rfl

theorem transferX_steps (s : State) : StepsFrame s (s.mapPpu transferX) := by
  unfold StepsFrame State.mapPpu transferX
  split <;> rfl

theorem transferY_steps (s : State) : StepsFrame s (s.mapPpu transferY) := by
  unfold StepsFrame State.mapPpu transferY
  split <;> rfl

theorem fetchTileId_steps (s : State) : StepsFrame s (fetchTileId s) := by
  unfold fetchTileId; exact (ppuRead_steps _ s).trans rfl
theorem fetchAttr_steps (s : State) : StepsFrame s (fetchAttr s) := by
  unfold fetchAttr; exact (ppuRead_steps _ s).trans rfl
theorem fetchLow_steps (s : State) : StepsFrame s (fetchLow s) := by
  unfold fetchLow; exact (ppuRead_steps _ s).trans rfl
theorem fetchHigh_steps (s : State) : StepsFrame s (fetchHigh s) := by
  unfold fetchHigh; exact (ppuRead_steps _ s).trans rfl

theorem fetchStep_steps (k : Nat) (s : State) : StepsFrame s (fetchStep k s) := by
  unfold fetchStep
  split
  · exact (loadShifters_steps s).trans (fetchTileId_steps _)
  · exact fetchAttr_steps s
  · exact fetchLow_steps s
  · exact fetchHigh_steps s
  · exact incrementX_steps s
  · exact .refl s

/-- Fetching the sprites' planes changes at most the count of cartridge answers. -/
theorem fetchSlots_state (n : Nat) (l : List SpriteSlot) (s : State) :
    (fetchSlots n l s).2 = s.setCart { s.cart with asks := (fetchSlots n l s).2.cart.asks } := by
  induction n generalizing l s with
  | zero => cases l <;> rfl
  | succ n ih =>
    cases l with
    | nil => rfl
    | cons q rest =>
      simp only [fetchSlots]
      rw [ih, ppuRead_state, ppuRead_state]
      rfl

theorem fetchSprites_steps (s : State) : StepsFrame s (fetchSprites s) := by
  unfold fetchSprites
  refine StepsFrame.trans (t := (fetchSlots s.ppu.spriteCount s.ppu.slots s).2) ?_ rfl
  rw [fetchSlots_state]; rfl

theorem plot_frame (p : Ppu) (c : Byte) : p.plot c = { p with frame := (p.plot c).frame } := by
  unfold Ppu.plot; split <;> rfl

theorem plot_steps (c : Byte) (s : State) : StepsFrame s (s.mapPpu fun p => p.plot c) := by
  unfold StepsFrame State.mapPpu
  simp only
  rw [plot_frame]

theorem compose_steps (s : State) : StepsFrame s (compose s) := by
  unfold compose
  simp only
  refine StepsFrame.trans (t := s.mapPpu fun p => { p with
    spr0Rendered := (foregroundPixel s.ppu).zero
    spr0Hit := p.spr0Hit || spriteZeroHit p (backgroundPixel s.ppu) (foregroundPixel s.ppu) }) rfl ?_
  refine (ppuRead_steps (pixelAddr (composite (backgroundPixel s.ppu) (foregroundPixel s.ppu))) _).trans ?_
  exact plot_steps _ _

theorem scanlineEndHook_steps (s : State) : StepsFrame s (scanlineEndHook s) := by
  unfold scanlineEndHook; split <;> rfl

theorem shiftAndFetch_steps (cy : Nat) (s : State) : StepsFrame s (shiftAndFetch cy s) := by
  unfold shiftAndFetch
  exact ((shiftBackground_steps s).doIf updateSprites_steps).trans (fetchStep_steps _ _)

theorem reload_steps (s : State) : StepsFrame s (s.mapPpu fun p => transferX (loadShifters p)) :=
  (loadShifters_steps s).trans (transferX_steps _)

theorem renderSteps_steps (sl : Int) (cy : Nat) (s : State) : StepsFrame s (renderSteps sl cy s) :=
  ((((((((StepsFrame.refl s).doIf preRenderClear_steps).doIf (shiftAndFetch_steps cy)).doIf incrementY_steps).doIf
    reload_steps).doIf fetchTileId_steps).doIf transferY_steps).doIf evaluateSprites_steps).doIf fetchSprites_steps

theorem positionSteps_steps (sl : Int) (cy : Nat) (s : State) : StepsFrame s (positionSteps sl cy s) :=
  ((((StepsFrame.refl s).doIf (renderSteps_steps sl cy)).doIf vblankSet_steps).doIf compose_steps).doIf
    scanlineEndHook_steps

/-! The output pulse and the sprite fetch. -/

@[simp] theorem fetchStep_outputs (k : Nat) (s : State) : (fetchStep k s).outputs = s.outputs := by
  unfold fetchStep
  split <;> first | rfl | simp [fetchTileId, fetchAttr, fetchLow, fetchHigh]

theorem doIf_outputs {c : Bool} {f : State → State} (hf : ∀ u, (f u).outputs = u.outputs) (s : State) :
    (doIf c f s).outputs = s.outputs := by
  unfold doIf; split
  · exact hf s
  · rfl

/-- The rendering steps give no output. -/
theorem renderSteps_outputs (sl : Int) (cy : Nat) (s : State) : (renderSteps sl cy s).outputs = s.outputs := by
  unfold renderSteps
  simp only
  rw [doIf_outputs, doIf_outputs, doIf_outputs, doIf_outputs, doIf_outputs, doIf_outputs, doIf_outputs, doIf_outputs]
  · intro u; rfl
  · intro u; unfold shiftAndFetch; rw [fetchStep_outputs]
    exact doIf_outputs (f := State.mapPpu updateSprites) (fun _ => rfl) _
  · intro u; rfl
  · intro u; rfl
  · intro u; simp [fetchTileId]
  · intro u; rfl
  · intro u; rfl
  · intro u; simp only [fetchSprites, State.mapPpu_outputs]; rw [fetchSlots_state]; rfl

/-- The hook of cycle 260 gives the only pulse of a PPU tick (R434). -/
theorem positionSteps_outputs (sl : Int) (cy : Nat) (s : State) :
    (positionSteps sl cy s).outputs = if s.ppu.rendering = true ∧ sl ≤ 239 ∧ cy = 260 then
      { s.outputs with scanlineEnd := true } else s.outputs := by
  have hook : ∀ u, StepsFrame s u → u.outputs = s.outputs →
      (doIf (decide (sl ≤ 239) && decide (cy = 260)) scanlineEndHook u).outputs =
        if s.ppu.rendering = true ∧ sl ≤ 239 ∧ cy = 260 then { s.outputs with scanlineEnd := true } else s.outputs := by
    intro u h ho
    have hr : u.ppu.rendering = s.ppu.rendering := by rw [h]; rfl
    unfold doIf scanlineEndHook
    rw [hr]
    by_cases h1 : sl ≤ 239 ∧ cy = 260 <;> by_cases h2 : s.ppu.rendering = true <;> simp [h1, h2, ho]
  unfold positionSteps
  refine hook _ ?_ ?_
  · exact (((StepsFrame.refl s).doIf (renderSteps_steps sl cy)).doIf vblankSet_steps).doIf compose_steps
  · rw [doIf_outputs, doIf_outputs, doIf_outputs]
    · intro u; exact renderSteps_outputs _ _ _
    · intro u; rfl
    · intro u; simp [compose]

/-- Fetching the first `n` slots, said once: there is a row of states, one before each slot, such that slot `i` gets the
planes read on state `i` and the reads leave state `i + 1`; every other slot stays (R412). -/
theorem fetchSlots_trace (n : Nat) (l : List SpriteSlot) (s : State) :
    ∃ at_ : Nat → State, at_ 0 = s ∧ (fetchSlots n l s).2 = at_ n ∧
      (∀ i, n ≤ i ∨ l[i]? = none → (fetchSlots n l s).1[i]? = l[i]?) ∧
      ∀ i q, i < n → l[i]? = some q →
        let low := ppuRead (spriteAddr s.ppu q) (at_ i)
        let high := ppuRead (spriteAddr s.ppu q + 8) low.2
        at_ (i + 1) = high.2 ∧ (fetchSlots n l s).1[i]? = some (q.load low.1 high.1) := by
  induction n generalizing l s with
  | zero => exact ⟨fun _ => s, rfl, rfl, fun _ _ => rfl, fun i q h => absurd h (by omega)⟩
  | succ n ih =>
    cases l with
    | nil => exact ⟨fun _ => s, rfl, rfl, fun _ _ => rfl, fun i q _ h => by simp at h⟩
    | cons q rest =>
      let u := (ppuRead (spriteAddr s.ppu q + 8) (ppuRead (spriteAddr s.ppu q) s).2).2
      have hu : u.ppu = s.ppu := by simp [u]
      obtain ⟨f, h0, h1, h2, h3⟩ := ih rest u
      refine ⟨fun i => if i = 0 then s else f (i - 1), rfl, h1, ?_, ?_⟩
      · intro i hi
        cases i with
        | zero => simp at hi
        | succ i => simp only [fetchSlots, List.getElem?_cons_succ]; exact h2 i (by simpa using hi)
      · intro i q' hi hq
        cases i with
        | zero =>
          simp only [List.getElem?_cons_zero, Option.some.injEq] at hq
          subst hq
          exact ⟨h0, rfl⟩
        | succ i =>
          have := h3 i q' (by omega) (by simpa using hq)
          rw [hu] at this
          exact this
theorem oddFrameSkip_frame (p : Ppu) : oddFrameSkip p = { p with cycle := (oddFrameSkip p).cycle } := by
  unfold oddFrameSkip; split <;> rfl

theorem advance_frame (p : Ppu) : advance p = { p with
    cycle := (advance p).cycle, scanline := (advance p).scanline, oddFrame := (advance p).oddFrame
    frameComplete := (advance p).frameComplete } := by
  unfold advance
  split
  · rfl
  · split <;> rfl

@[simp] theorem ppuTick_cpu (s : State) : (ppuTick s).cpu = s.cpu := by
  unfold ppuTick; simp only [State.mapPpu_cpu]; rw [positionSteps_steps]; rfl
@[simp] theorem ppuTick_orch (s : State) : (ppuTick s).orch = s.orch := by
  unfold ppuTick; simp only [State.mapPpu_orch]; rw [positionSteps_steps]; rfl
@[simp] theorem ppuTick_inputs (s : State) : (ppuTick s).inputs = s.inputs := by
  unfold ppuTick; simp only [State.mapPpu_inputs]; rw [positionSteps_steps]; rfl
@[simp] theorem ppuTick_params (s : State) : (ppuTick s).params = s.params := by
  unfold ppuTick; simp only [State.mapPpu_params]; rw [positionSteps_steps]; rfl

/-- A PPU tick changes of the cartridge only the count of answers. -/
theorem ppuTick_cart (s : State) : (ppuTick s).cart = { s.cart with asks := (ppuTick s).cart.asks } := by
  unfold ppuTick
  simp only [State.mapPpu_cart]
  conv => lhs; rw [positionSteps_steps]
  rfl

/-! The position (R382, R432). -/

/-- The position, the frame flags and the mask bits that the advance depends on. -/
structure Pos where
  line     : Int
  dot      : Nat
  odd      : Bool
  complete : Bool
deriving DecidableEq, Repr

/-- The position of a PPU. -/
def Ppu.pos (p : Ppu) : Pos := ⟨p.scanline, p.cycle, p.oddFrame, p.frameComplete⟩

/-- The position after one tick. -/
def Pos.next (rendering : Bool) (q : Pos) : Pos :=
  let dot := if q.line = 0 ∧ q.dot = 0 ∧ q.odd = true ∧ rendering = true then 1 else q.dot
  if dot + 1 ≤ 340 then { q with dot := dot + 1 }
  else if q.line + 1 ≤ 260 then { q with dot := 0, line := q.line + 1 }
  else { line := -1, dot := 0, odd := !q.odd, complete := true }

/-- A tick moves the position by `Pos.next`. -/
theorem ppuTick_pos (s : State) : (ppuTick s).ppu.pos = s.ppu.pos.next s.ppu.rendering := by
  have h := positionSteps_steps (s.mapPpu oddFrameSkip).ppu.scanline (s.mapPpu oddFrameSkip).ppu.cycle
    (s.mapPpu oddFrameSkip)
  have hs : (positionSteps (s.mapPpu oddFrameSkip).ppu.scanline (s.mapPpu oddFrameSkip).ppu.cycle
    (s.mapPpu oddFrameSkip)).ppu.pos = (oddFrameSkip s.ppu).pos := by rw [h]; rfl
  unfold ppuTick
  simp only [State.mapPpu_ppu]
  simp only [State.mapPpu_ppu] at hs
  generalize (positionSteps (oddFrameSkip s.ppu).scanline (oddFrameSkip s.ppu).cycle (s.mapPpu oddFrameSkip)).ppu = q at *
  have ha : (advance q).pos = (advance (oddFrameSkip s.ppu)).pos := by
    simp only [Ppu.pos, Pos.mk.injEq] at hs
    obtain ⟨h1, h2, h3, h4⟩ := hs
    unfold advance
    rw [h1, h2]
    split
    · simp [Ppu.pos, h3, h4]
    · split <;> simp [Ppu.pos, h3, h4]
  rw [ha]
  have h0 : oddFrameSkip s.ppu = { s.ppu with
      cycle := if s.ppu.scanline = 0 ∧ s.ppu.cycle = 0 ∧ s.ppu.oddFrame = true ∧ s.ppu.rendering = true then 1
        else s.ppu.cycle } := by
    unfold oddFrameSkip; split <;> simp_all
  rw [h0]
  unfold advance Pos.next Ppu.pos
  simp only
  generalize (if s.ppu.scanline = 0 ∧ s.ppu.cycle = 0 ∧ s.ppu.oddFrame = true ∧ s.ppu.rendering = true then 1
    else s.ppu.cycle) = d
  by_cases h1 : d + 1 ≤ 340
  · simp [h1]
  · by_cases h2 : s.ppu.scanline + 1 ≤ 260 <;> simp [h1, h2]

/-- The mask, and so "rendering enabled", is not changed by the PPU. -/
theorem ppuTick_mask (s : State) : (ppuTick s).ppu.mask = s.ppu.mask := by
  unfold ppuTick
  simp only [State.mapPpu_ppu]
  rw [advance_frame, positionSteps_steps]
  simp only [State.mapPpu_ppu]
  rw [oddFrameSkip_frame]

/-! The invariant. -/

theorem mapFirst_length (f : SpriteSlot → SpriteSlot) (n : Nat) (l : List SpriteSlot) :
    (mapFirst f n l).length = l.length := by
  induction n generalizing l with
  | zero => rfl
  | succ n ih => cases l <;> simp [mapFirst, ih]

theorem fetchSlots_length (n : Nat) (l : List SpriteSlot) (s : State) : (fetchSlots n l s).1.length = l.length := by
  induction n generalizing l s with
  | zero => rfl
  | succ n ih => cases l <;> simp [fetchSlots, ih]

/-- What the scan of OAM can give: at most 8 slots, and sprite 0 only if some slot was taken. -/
theorem scanSprites_bound (p : Ppu) (l : List Nat) (r : Scan) (h : r.found.length ≤ 8)
    (hz : r.zero = true → 0 < r.found.length) :
    (scanSprites p l r).found.length ≤ 8 ∧ ((scanSprites p l r).zero = true → 0 < (scanSprites p l r).found.length) := by
  induction l generalizing r with
  | nil => exact ⟨h, hz⟩
  | cons n rest ih =>
    simp only [scanSprites]
    split
    · split
      · exact ih _ (by simp; omega) (by simp)
      · exact ⟨h, hz⟩
    · exact ih r h hz

theorem evaluateSprites_inv {p : Ppu} (h : p.Inv) : (evaluateSprites p).Inv := by
  have hb := scanSprites_bound p (List.range 64) { found := [], zero := false, overflow := false } (by simp) (by simp)
  refine { h with slots := ?_, count := hb.1, zero := hb.2 }
  simp only [evaluateSprites, List.length_append, List.length_replicate]
  omega

theorem Inner.mapPpu {s : State} (h : Inner s) {f : Ppu → Ppu} (hf : (f s.ppu).Inv) : Inner (s.mapPpu f) :=
  ⟨hf, h.orch, h.cart, h.params⟩

theorem Inner.doIf {c : Bool} {f : State → State} {s : State} (h : Inner s) (hf : ∀ u, Inner u → Inner (f u)) :
    Inner (doIf c f s) := by
  unfold Machine.doIf
  split
  · exact hf s h
  · exact h

theorem ppuRead_inner {s : State} (a : Word) (h : Inner s) : Inner (ppuRead a s).2 := by
  rw [ppuRead_state]; exact ⟨h.ppu, h.orch, Cart.inv_asks _ h.cart, h.params⟩

theorem incrementX_inv {p : Ppu} (h : p.Inv) : (incrementX p).Inv := by
  unfold incrementX
  split
  · split <;> exact { h with }
  · exact h

theorem incrementY_inv {p : Ppu} (h : p.Inv) : (incrementY p).Inv := by
  unfold incrementY
  split
  · split
    · exact { h with }
    · split
      · exact { h with }
      · split <;> exact { h with }
  · exact h

theorem transferX_inv {p : Ppu} (h : p.Inv) : (transferX p).Inv := by
  unfold transferX; split <;> first | exact h | exact { h with }

theorem transferY_inv {p : Ppu} (h : p.Inv) : (transferY p).Inv := by
  unfold transferY; split <;> first | exact h | exact { h with }

theorem preRenderClear_inv {p : Ppu} (h : p.Inv) : (preRenderClear p).Inv := by
  refine { h with slots := ?_, count := Nat.zero_le _, zero := fun k => by simp [preRenderClear] at k }
  simpa [preRenderClear] using h.slots

theorem updateSprites_inv {p : Ppu} (h : p.Inv) : (updateSprites p).Inv :=
  { h with slots := (mapFirst_length _ _ _).trans h.slots }

/-- A step that leaves the sprite slots and the frame alone keeps the invariant. -/
theorem Inner.same {s t : State} (h : Inner s) (k : StepsFrame s t) (e1 : t.ppu.slots = s.ppu.slots)
    (e2 : t.ppu.spriteCount = s.ppu.spriteCount) (e3 : t.ppu.spr0Possible = s.ppu.spr0Possible)
    (e4 : t.ppu.frame = s.ppu.frame) : Inner t := by
  unfold StepsFrame at k
  rw [e1, e2, e3, e4] at k
  rw [k]
  exact ⟨{ h.ppu with }, h.orch, Cart.inv_asks _ h.cart, h.params⟩

theorem fetchTileId_inner {s : State} (h : Inner s) : Inner (fetchTileId s) :=
  h.same (fetchTileId_steps s) (by simp [fetchTileId]) (by simp [fetchTileId]) (by simp [fetchTileId])
    (by simp [fetchTileId])

theorem loadShifters_inner {s : State} (h : Inner s) : Inner (s.mapPpu loadShifters) :=
  h.same (loadShifters_steps s) rfl rfl rfl rfl

theorem fetchStep_inner {s : State} (k : Nat) (h : Inner s) : Inner (fetchStep k s) := by
  unfold fetchStep
  split
  · exact fetchTileId_inner (loadShifters_inner h)
  · exact h.same (fetchAttr_steps s) (by simp [fetchAttr]) (by simp [fetchAttr]) (by simp [fetchAttr])
      (by simp [fetchAttr])
  · exact h.same (fetchLow_steps s) (by simp [fetchLow]) (by simp [fetchLow]) (by simp [fetchLow]) (by simp [fetchLow])
  · exact h.same (fetchHigh_steps s) (by simp [fetchHigh]) (by simp [fetchHigh]) (by simp [fetchHigh])
      (by simp [fetchHigh])
  · exact h.mapPpu (incrementX_inv h.ppu)
  · exact h

theorem shiftAndFetch_inner {s : State} (cy : Nat) (h : Inner s) : Inner (shiftAndFetch cy s) := by
  have h1 : Inner (s.mapPpu shiftBackground) := h.same (shiftBackground_steps s) rfl rfl rfl rfl
  exact fetchStep_inner _ (h1.doIf fun _ k => k.mapPpu (updateSprites_inv k.ppu))

theorem fetchSprites_inner {s : State} (h : Inner s) : Inner (fetchSprites s) := by
  have h2 : Inner (fetchSlots s.ppu.spriteCount s.ppu.slots s).2 := by
    rw [fetchSlots_state]; exact ⟨h.ppu, h.orch, Cart.inv_asks _ h.cart, h.params⟩
  refine Inner.mapPpu (f := fun p => { p with slots := (fetchSlots s.ppu.spriteCount s.ppu.slots s).1 }) h2 ⟨h2.ppu.oam, h2.ppu.nametable, h2.ppu.palette, h2.ppu.pattern, h2.ppu.frame, ?_, h2.ppu.count,
    h2.ppu.zero, h2.ppu.line, h2.ppu.dot⟩
  exact (fetchSlots_length _ _ _).trans h.ppu.slots

theorem renderSteps_inner {s : State} (sl : Int) (cy : Nat) (h : Inner s) : Inner (renderSteps sl cy s) := by
  unfold renderSteps
  simp only
  refine Inner.doIf ?_ fun _ k => fetchSprites_inner k
  refine Inner.doIf ?_ fun _ k => k.mapPpu (evaluateSprites_inv k.ppu)
  refine Inner.doIf ?_ fun _ k => k.mapPpu (transferY_inv k.ppu)
  refine Inner.doIf ?_ fun _ k => fetchTileId_inner k
  refine Inner.doIf ?_ fun u k => (loadShifters_inner k).mapPpu (f := transferX) (transferX_inv (loadShifters_inner k).ppu)
  refine Inner.doIf ?_ fun _ k => k.mapPpu (incrementY_inv k.ppu)
  refine Inner.doIf ?_ fun _ k => shiftAndFetch_inner _ k
  exact Inner.doIf h fun _ k => k.mapPpu (preRenderClear_inv k.ppu)

/-- Composing keeps the invariant on the visible positions. -/
theorem compose_inner {s : State} (h : Inner s) (h0 : 0 ≤ s.ppu.scanline) (h1 : s.ppu.scanline ≤ 239)
    (h2 : 1 ≤ s.ppu.cycle) : Inner (compose s) := by
  unfold compose
  simp only
  refine Inner.mapPpu (ppuRead_inner _ ?_) ?_
  · exact ⟨{ h.ppu with }, h.orch, h.cart, h.params⟩
  · simp only [ppuRead_ppu, State.mapPpu_ppu]
    unfold Ppu.plot
    split
    · rename_i hc
      refine { h.ppu with frame := Memory.wf_put _ h.ppu.frame ?_ }
      simp only at hc
      simp only [decide_eq_true_eq]
      omega
    · exact { h.ppu with }

theorem positionSteps_inner {s : State} (h : Inner s) : Inner (positionSteps s.ppu.scanline s.ppu.cycle s) := by
  unfold positionSteps
  simp only
  refine Inner.doIf ?_ ?_
  · have hf : StepsFrame s (doIf (decide (s.ppu.scanline = 241) && decide (s.ppu.cycle = 1)) (State.mapPpu vblankSet)
        (doIf (decide (-1 ≤ s.ppu.scanline) && decide (s.ppu.scanline ≤ 239))
          (renderSteps s.ppu.scanline s.ppu.cycle) s)) :=
      ((StepsFrame.refl s).doIf (renderSteps_steps _ _)).doIf vblankSet_steps
    have hi : Inner (doIf (decide (s.ppu.scanline = 241) && decide (s.ppu.cycle = 1)) (State.mapPpu vblankSet)
        (doIf (decide (-1 ≤ s.ppu.scanline) && decide (s.ppu.scanline ≤ 239))
          (renderSteps s.ppu.scanline s.ppu.cycle) s)) :=
      (h.doIf fun _ k => renderSteps_inner _ _ k).doIf fun _ k => k.mapPpu { k.ppu with }
    revert hf hi
    generalize doIf (decide (s.ppu.scanline = 241) && decide (s.ppu.cycle = 1)) (State.mapPpu vblankSet)
        (doIf (decide (-1 ≤ s.ppu.scanline) && decide (s.ppu.scanline ≤ 239))
          (renderSteps s.ppu.scanline s.ppu.cycle) s) = u
    intro hf hi
    have e1 : u.ppu.scanline = s.ppu.scanline := by rw [hf]
    have e2 : u.ppu.cycle = s.ppu.cycle := by rw [hf]
    unfold doIf
    split
    · rename_i hc
      simp only [Bool.and_eq_true, decide_eq_true_eq] at hc
      exact compose_inner hi (by omega) (by omega) (by omega)
    · exact hi
  · intro u k
    unfold scanlineEndHook
    split
    · exact ⟨k.ppu, k.orch, k.cart, k.params⟩
    · exact k

theorem oddFrameSkip_inv {p : Ppu} (h : p.Inv) : (oddFrameSkip p).Inv := by
  unfold oddFrameSkip
  split
  · exact { h with dot := by simp }
  · exact h

theorem advance_inv {p : Ppu} (h : p.Inv) : (advance p).Inv := by
  have hl := h.line
  unfold advance
  split
  · exact { h with dot := by assumption }
  · split
    · exact { h with dot := Nat.zero_le _, line := by constructor <;> simp <;> omega }
    · exact { h with dot := Nat.zero_le _, line := by simp }

/-- A PPU tick keeps the invariant. -/
theorem ppuTick_inner {s : State} (h : Inner s) : Inner (ppuTick s) := by
  have h1 : Inner (s.mapPpu oddFrameSkip) := h.mapPpu (oddFrameSkip_inv h.ppu)
  have h2 := positionSteps_inner h1
  exact h2.mapPpu (advance_inv h2.ppu)

end Sys2Proof.Machine
end

