-- ==== Sys2Proof/Laws/Step.lean ====
section
/-! SUPPORT. What fetching, the slots of a system tick, the interrupt phase and a reset can do, said once. -/

namespace Sys2Proof.Machine

@[simp] theorem onNext_next (s : State) (f : State → State) : onNext (.next s) f = .next (f s) := rfl

/-! Fetching. -/

theorem fetchByte_frame (s : State) : ReadFrame s (fetchByte s).2 := (memRead_frame _ s).withCpu _

/-- Fetching an instruction is a run of bus reads; of the CPU it changes PC alone. -/
theorem fetchInstr_frame (s : State) : ReadFrame s (fetchInstr s).2 := by
  unfold fetchInstr
  simp only
  split
  · exact fetchByte_frame s
  · exact (fetchByte_frame s).trans (fetchByte_frame _)
  · exact ((fetchByte_frame s).trans (fetchByte_frame _)).trans (fetchByte_frame _)

theorem fetchByte_cpu (s : State) : (fetchByte s).2.cpu = { s.cpu with pc := s.cpu.pc + 1 } := by simp [fetchByte]

theorem fetchInstr_cpu (s : State) : (fetchInstr s).2.cpu = { s.cpu with pc := (fetchInstr s).2.cpu.pc } := by
  unfold fetchInstr
  simp only
  split <;> simp [fetchByte_cpu]

/-! The CPU tick. -/

/-- A CPU tick always goes on. -/
theorem cpuTick_next (s : State) : ∃ t, cpuTick s = .next t := by
  unfold cpuTick
  split
  · obtain ⟨t, ht⟩ := (exec_goes (fetchInstr s).1 (fetchInstr s).2).next
    exact ⟨spendCycle t, by simp [ht]⟩
  · exact ⟨_, rfl⟩

/-- What a CPU tick can do to the parts it does not compute with. -/
theorem cpuTick_spec {s t : State} (h : cpuTick s = .next t) :
    (Inner s → Inner t) ∧ t.inputs = s.inputs ∧ t.outputs = s.outputs ∧ t.params = s.params
      ∧ t.cpu.cycles ≤ max 7 (s.cpu.cycles - 1) := by
  unfold cpuTick at h
  split at h
  · have g := exec_goes (fetchInstr s).1 (fetchInstr s).2
    have hf := fetchInstr_frame s
    obtain ⟨u, hu⟩ := g.next
    simp only [hu, onNext_next] at h
    injection h with h; subst h
    refine ⟨fun k => (g.inner u hu (k.ofReadFrame hf)).ofEq rfl rfl rfl rfl, ?_, ?_, ?_, ?_⟩
    · simp only [spendCycle, State.setCycles_inputs]; rw [g.inputs u hu, hf]
    · simp only [spendCycle, State.setCycles_outputs]; rw [g.outputs u hu, hf]
    · simp only [spendCycle, State.setCycles_params]; rw [g.params u hu, hf]
    · have := g.cycles u hu
      simp only [spendCycle, State.setCycles_cpu]
      omega
  · injection h with h; subst h
    refine ⟨fun k => k.ofEq rfl rfl rfl rfl, rfl, rfl, rfl, ?_⟩
    simp only [spendCycle, State.setCycles_cpu]
    omega

/-! The DMA slot. -/

@[simp] theorem dmaSlot_cpu (s : State) : (dmaSlot s).cpu = s.cpu := by
  unfold dmaSlot
  split
  · split <;> rfl
  · split
    · simp [dmaRead]
    · rfl
@[simp] theorem dmaSlot_inputs (s : State) : (dmaSlot s).inputs = s.inputs := by
  unfold dmaSlot
  split
  · split <;> rfl
  · split
    · simp [dmaRead]
    · rfl
@[simp] theorem dmaSlot_outputs (s : State) : (dmaSlot s).outputs = s.outputs := by
  unfold dmaSlot
  split
  · split <;> rfl
  · split
    · simp [dmaRead]
    · rfl
@[simp] theorem dmaSlot_params (s : State) : (dmaSlot s).params = s.params := by
  unfold dmaSlot
  split
  · split <;> rfl
  · split
    · simp [dmaRead]
    · rfl

theorem dmaSlot_inner {s : State} (h : Inner s) (ha : s.orch.dmaActive = true) : Inner (dmaSlot s) := by
  unfold dmaSlot
  split
  · split
    · exact ⟨h.ppu, ⟨h.orch.work, fun k => by simp [ha] at k, h.orch.audio⟩, h.cart, h.params⟩
    · exact h
  · split
    · have h2 := memRead_inner (wordOf s.orch.dmaPage s.orch.dmaIndex) h
      exact ⟨h2.ppu, ⟨h2.orch.work, h2.orch.align, h2.orch.audio⟩, h2.cart, h2.params⟩
    · unfold dmaWrite
      refine ⟨⟨Memory.wf_put _ h.ppu.oam (by simpa using s.orch.dmaIndex.isLt), h.ppu.nametable, h.ppu.palette,
        h.ppu.pattern, h.ppu.frame, h.ppu.slots, h.ppu.count, h.ppu.zero, h.ppu.line, h.ppu.dot⟩, ?_, h.cart, h.params⟩
      simp only [State.mapOrch_orch, State.mapPpu_orch]
      unfold Orch.nextByte
      split
      · exact ⟨h.orch.work, fun _ => rfl, h.orch.audio⟩
      · exact ⟨h.orch.work, h.orch.align, h.orch.audio⟩

/-! Sound and audio. -/

theorem soundSlot_inner {s : State} (h : Inner s) : Inner (soundSlot s) :=
  ⟨h.ppu, ⟨h.orch.work, h.orch.align, h.orch.audio⟩, h.cart, h.params⟩

theorem audioTime_inner {s : State} (h : Inner s) : Inner (audioTime s) := by
  refine ⟨h.ppu, ⟨h.orch.work, h.orch.align, ?_⟩, h.cart, h.params⟩
  have h0 : 0 ≤ audioSum s := by
    unfold audioSum
    have : 0 ≤ 1 / s.params.graphicsClockHz := by have := h.params.clock; positivity
    have := h.orch.audio
    linarith
  simp only [audioTime]
  split
  · rename_i hd
    simp only [sampleDue, decide_eq_true_eq] at hd
    linarith
  · exact h0

/-! The interrupt phase. -/

/-- A bus write to the stack page reaches work memory or the cartridge, nothing else. -/
theorem memWrite_stack (p v : Byte) (s : State) :
    memWrite (stackAddr p) v s = { s with
      orch := { s.orch with workRam := (memWrite (stackAddr p) v s).orch.workRam }
      cart := (memWrite (stackAddr p) v s).cart } := by
  have h : (stackAddr p).toNat < 0x2000 := by
    have : ∀ p : Byte, (stackAddr p).toNat < 0x2000 := by decide
    exact this p
  unfold memWrite memWriteInside
  simp only [h, if_true]
  split <;> rfl

theorem push_queue (v : Byte) (s : State) : (push v s).orch.soundQueue = s.orch.soundQueue := by
  simp only [push, State.setS_orch]
  rw [memWrite_stack]

theorem ReadFrame.queue {s t : State} (h : ReadFrame s t) : t.orch.soundQueue = s.orch.soundQueue := by rw [h]

/-- A trap queues no sound register write. -/
theorem trapEntry_queue (ret : Word) (status : Byte) (vector : Word) (s : State) :
    (trapEntry ret status vector s).orch.soundQueue = s.orch.soundQueue := by
  simp only [trapEntry, State.setPc_orch]
  rw [(read16_frame vector _).queue]
  simp only [State.setP_orch, pushWord, push_queue]

theorem nmi_inner {s : State} (h : Inner s) : Inner (nmi s) := (trapEntry_inner _ _ _ h).ofEq rfl rfl rfl rfl

theorem irq_inner {s : State} (h : Inner s) : Inner (irq s) := by
  unfold irq
  split
  · exact h
  · exact (trapEntry_inner _ _ _ h).ofEq rfl rfl rfl rfl

theorem irq_params (s : State) : (irq s).params = s.params := by
  unfold irq
  split
  · rfl
  · simp [interruptEntry]

theorem irq_inputs (s : State) : (irq s).inputs = s.inputs := by
  unfold irq
  split
  · rfl
  · simp [interruptEntry]

theorem irq_queue (s : State) : (irq s).orch.soundQueue = s.orch.soundQueue := by
  unfold irq
  split
  · rfl
  · simp [interruptEntry, trapEntry_queue]

theorem irq_cycles (s : State) : (irq s).cpu.cycles ≤ max s.cpu.cycles s.params.irqCycles := by
  unfold irq
  split
  · omega
  · simp only [State.setCycles_cpu]; omega

/-- NMI routing: invariant, parameters, inputs, queue, cycles owed. -/
theorem routeNmi_spec (s : State) :
    (Inner s → Inner (routeNmi s)) ∧ (routeNmi s).params = s.params ∧ (routeNmi s).inputs = s.inputs
      ∧ (routeNmi s).orch.soundQueue = s.orch.soundQueue
      ∧ (routeNmi s).cpu.cycles ≤ max s.cpu.cycles s.params.nmiCycles := by
  unfold routeNmi
  split
  · refine ⟨fun h => nmi_inner (h.same rfl rfl rfl rfl rfl), ?_, ?_, ?_, ?_⟩
    · simp [nmi, interruptEntry]
    · simp [nmi, interruptEntry]
    · simp [nmi, interruptEntry, trapEntry_queue]
    · simp only [nmi, State.setCycles_cpu, State.mapPpu_params]; omega
  · exact ⟨id, rfl, rfl, rfl, by omega⟩

/-- IRQ routing: invariant, parameters, inputs, queue, cycles owed. -/
theorem routeIrq_spec (s : State) :
    (Inner s → Inner (routeIrq s)) ∧ (routeIrq s).params = s.params ∧ (routeIrq s).inputs = s.inputs
      ∧ (routeIrq s).orch.soundQueue = s.orch.soundQueue
      ∧ (routeIrq s).cpu.cycles ≤ max s.cpu.cycles s.params.irqCycles := by
  have hc : Inner s → s.cart.irqPending.2.Inv := fun h => by rw [Cart.irqPending_cart]; exact Cart.inv_asks _ h.cart
  unfold routeIrq
  simp only
  split
  · refine ⟨fun h => irq_inner ⟨h.ppu, h.orch, ⟨(hc h).cpu, (hc h).ppu⟩, h.params⟩, ?_, ?_, ?_, ?_⟩
    · rw [irq_params]; rfl
    · rw [irq_inputs]; rfl
    · rw [irq_queue]; rfl
    · exact irq_cycles _
  · exact ⟨fun h => ⟨h.ppu, h.orch, hc h, h.params⟩, rfl, rfl, rfl, by simp⟩

/-- The end of a system tick. -/
theorem tickEnd_spec (s : State) :
    (Inner s → Inner (tickEnd s)) ∧ (tickEnd s).params = s.params ∧ (tickEnd s).inputs = s.inputs
      ∧ (tickEnd s).orch.soundQueue = s.orch.soundQueue
      ∧ (tickEnd s).cpu.cycles ≤ max s.cpu.cycles (max s.params.nmiCycles s.params.irqCycles) := by
  have h1 := routeNmi_spec (audioTime s)
  have h2 := routeIrq_spec (routeNmi (audioTime s))
  unfold tickEnd
  simp only [State.mapOrch_params, State.mapOrch_inputs, State.mapOrch_orch, State.mapOrch_cpu]
  refine ⟨fun h => ?_, ?_, ?_, ?_, ?_⟩
  · have k := h2.1 (h1.1 (audioTime_inner h))
    exact ⟨k.ppu, ⟨k.orch.work, k.orch.align, k.orch.audio⟩, k.cart, k.params⟩
  · rw [h2.2.1, h1.2.1]; rfl
  · rw [h2.2.2.1, h1.2.2.1]; rfl
  · rw [h2.2.2.2.1, h1.2.2.2.1]; rfl
  · have a := h2.2.2.2.2
    have b := h1.2.2.2.2
    rw [h1.2.1] at a
    have e1 : (audioTime s).cpu.cycles = s.cpu.cycles := rfl
    have e2 : (audioTime s).params.nmiCycles = s.params.nmiCycles := rfl
    have e3 : (audioTime s).params.irqCycles = s.params.irqCycles := rfl
    omega

theorem tickBegin_spec (s : State) :
    (Inner s → Inner (tickBegin s)) ∧ (tickBegin s).params = s.params ∧ (tickBegin s).inputs = s.inputs
      ∧ (tickBegin s).orch = s.orch ∧ (tickBegin s).cpu = s.cpu := by
  unfold tickBegin
  exact ⟨fun h => ppuTick_inner ⟨h.ppu, h.orch, h.cart, h.params⟩, by simp, by simp, by simp, by simp⟩

/-- What the CPU-rate slot can do: it always goes on, and the sound queue is empty after it. -/
theorem cpuSlot_spec (s : State) :
    ∃ t, cpuSlot s = .next t ∧ (Inner s → Inner t) ∧ t.params = s.params ∧ t.inputs = s.inputs
      ∧ (s.orch.soundQueue = [] → t.orch.soundQueue = []) ∧ t.cpu.cycles ≤ max 7 s.cpu.cycles := by
  unfold cpuSlot
  split
  · split
    · rename_i ha
      exact ⟨_, rfl, fun h => soundSlot_inner (dmaSlot_inner h ha), by simp [soundSlot], by simp [soundSlot],
        fun _ => rfl, by simp [soundSlot]⟩
    · obtain ⟨t, ht⟩ := cpuTick_next s
      have k := cpuTick_spec ht
      refine ⟨soundSlot t, by simp [ht], fun h => soundSlot_inner (k.1 h), k.2.2.2.1, k.2.1, fun _ => rfl, ?_⟩
      have := k.2.2.2.2
      simp only [soundSlot]
      omega
  · exact ⟨s, rfl, id, rfl, rfl, id, by omega⟩

/-! The reset. -/

theorem cpuReset_frame (s : State) : ReadFrame s (cpuReset s) := by
  unfold cpuReset
  exact (ReadFrame.ofCpu (read16_frame Config.resetVector _)).withCpu _

theorem resetWith_inv {p : Ppu} (h : p.Inv) :
    (Ppu.resetWith p.oam p.nametable p.palette p.pattern p.frame).Inv :=
  ⟨h.oam, h.nametable, h.palette, h.pattern, h.frame, rfl, Nat.zero_le _, fun k => by simp [Ppu.resetWith] at k,
    by simp [Ppu.resetWith], Nat.zero_le _⟩

/-- A system reset keeps the memories canonical and sets the CPU's registers (R495). -/
theorem systemReset_spec (s : State) :
    (Inner s → Inner (systemReset s)) ∧ (systemReset s).params = s.params
      ∧ (systemReset s).orch.soundQueue = [] ∧ (systemReset s).cpu.cycles = s.params.resetCycles := by
  unfold systemReset
  refine ⟨fun h => Inner.ofReadFrame ?_ (cpuReset_frame _), ?_, ?_, ?_⟩
  · exact ⟨resetWith_inv h.ppu, ⟨h.orch.work, fun _ => rfl, le_refl _⟩, h.cart, h.params⟩
  · rw [cpuReset_frame]
  · rw [(cpuReset_frame _).queue]; rfl
  · simp [cpuReset]

end Sys2Proof.Machine
end

