-- ==== Sys2Proof/Laws/Cpu.lean ====
section
/-! SUPPORT. The buses do not depend on the CPU registers: a read or a write commutes with any update of the CPU. With
these equations the pushes, pops and fetches of an instruction are plain bus accesses from the state it began in. -/

namespace Sys2Proof.Machine

/-- The state with other CPU registers. -/
def onCpu (c : Cpu) (s : State) : State := { s with cpu := c }
@[simp] theorem onCpu_cpu (c s) : (onCpu c s).cpu = c := rfl
@[simp] theorem onCpu_ppu (c s) : (onCpu c s).ppu = s.ppu := rfl
@[simp] theorem onCpu_orch (c s) : (onCpu c s).orch = s.orch := rfl
@[simp] theorem onCpu_cart (c s) : (onCpu c s).cart = s.cart := rfl
@[simp] theorem onCpu_inputs (c s) : (onCpu c s).inputs = s.inputs := rfl
@[simp] theorem onCpu_outputs (c s) : (onCpu c s).outputs = s.outputs := rfl
@[simp] theorem onCpu_params (c s) : (onCpu c s).params = s.params := rfl
@[simp] theorem onCpu_onCpu (c d s) : onCpu c (onCpu d s) = onCpu c s := rfl
@[simp] theorem onCpu_self (s) : onCpu s.cpu s = s := rfl

theorem ppuRead_onCpu (a : Word) (c : Cpu) (s : State) :
    ppuRead a (onCpu c s) = ((ppuRead a s).1, onCpu c (ppuRead a s).2) := by
  unfold ppuRead ppuReadInside
  simp only [onCpu_cart]
  split
  · rfl
  · split
    · rfl
    · split <;> rfl

theorem portRead_onCpu (n : BitVec 3) (c : Cpu) (s : State) :
    portRead n (onCpu c s) = ((portRead n s).1, onCpu c (portRead n s).2) := by
  unfold portRead
  split
  · rfl
  · rfl
  · unfold readData; simp only [onCpu_ppu, ppuRead_onCpu]; rfl
  · rfl

/-- A CPU-bus read does not depend on the CPU registers and leaves them alone. -/
theorem memRead_onCpu (a : Word) (c : Cpu) (s : State) :
    memRead a (onCpu c s) = ((memRead a s).1, onCpu c (memRead a s).2) := by
  unfold memRead
  simp only [onCpu_cart]
  split
  · rfl
  · have : (onCpu c s).setCart (s.cart.cpuRead a).2 = onCpu c (s.setCart (s.cart.cpuRead a).2) := rfl
    rw [this]
    generalize s.setCart (s.cart.cpuRead a).2 = t
    unfold memReadInside
    split
    · rfl
    · split
      · exact portRead_onCpu _ _ _
      · split
        · rfl
        · split <;> rfl

theorem ppuWrite_onCpu (a : Word) (v : Byte) (c : Cpu) (s : State) :
    ppuWrite a v (onCpu c s) = onCpu c (ppuWrite a v s) := by
  unfold ppuWrite ppuWriteInside
  simp only [onCpu_cart]
  by_cases h : (ppuWriteClaim (BitVec.setWidth 14 a) v s.cart).1 = true
  · simp only [h, if_true]; rfl
  · simp only [h]
    by_cases h2 : (BitVec.setWidth 14 a).toNat < 8192
    · simp only [h2, if_true]; rfl
    · by_cases h3 : (BitVec.setWidth 14 a).toNat < 0x3F00
      · simp only [h2, h3, if_true, if_false]; rfl
      · simp only [h2, h3, if_false]; rfl

theorem portWrite_onCpu (n : BitVec 3) (v : Byte) (c : Cpu) (s : State) :
    portWrite n v (onCpu c s) = onCpu c (portWrite n v s) := by
  unfold portWrite
  split <;> try rfl
  unfold writeData; simp only [onCpu_ppu, ppuWrite_onCpu]; rfl

/-- A CPU-bus write does not depend on the CPU registers and leaves them alone. -/
theorem memWrite_onCpu (a : Word) (v : Byte) (c : Cpu) (s : State) :
    memWrite a v (onCpu c s) = onCpu c (memWrite a v s) := by
  unfold memWrite
  simp only [onCpu_cart]
  by_cases h : (Cart.cpuWrite a v s.cart).1 = true
  · simp only [h, if_true]; rfl
  · have : (onCpu c s).setCart (s.cart.cpuWrite a v).2 = onCpu c (s.setCart (s.cart.cpuWrite a v).2) := rfl
    simp only [h, this]
    generalize s.setCart (s.cart.cpuWrite a v).2 = t
    unfold memWriteInside
    by_cases h1 : a.toNat < 0x2000
    · simp only [h1, if_true]; rfl
    · by_cases h2 : a.toNat < 0x4000
      · simp only [h1, h2, if_true, if_false]; exact portWrite_onCpu _ _ _ _
      · by_cases h3 : isSoundWrite a = true
        · simp only [h1, h2, h3, if_true, if_false]; rfl
        · by_cases h4 : a = 0x4014
          · subst h4; rfl
          · by_cases h5 : a = 0x4016
            · subst h5; rfl
            · simp only [h1, h2, h3, h4, h5, if_false]; rfl
/-! The register updates, as updates of the CPU. -/
theorem setS_onCpu (v : Byte) (s : State) : s.setS v = onCpu { s.cpu with s := v } s := rfl

theorem setA_onCpu (v : Byte) (s : State) : s.setA v = onCpu { s.cpu with a := v } s := rfl

theorem setX_onCpu (v : Byte) (s : State) : s.setX v = onCpu { s.cpu with x := v } s := rfl

theorem setPc_onCpu (v : Word) (s : State) : s.setPc v = onCpu { s.cpu with pc := v } s := rfl

theorem setP_onCpu (v : Flags) (s : State) : s.setP v = onCpu { s.cpu with p := v } s := rfl

theorem mapP_onCpu (v : Flags → Flags) (s : State) : s.mapP v = onCpu { s.cpu with p := v s.cpu.p } s := rfl

theorem setZN_onCpu (v : Byte) (s : State) : s.setZN v = onCpu { s.cpu with p := s.cpu.p.setZN v } s := rfl

theorem setCycles_onCpu (n : Nat) (s : State) : s.setCycles n = onCpu { s.cpu with cycles := n } s := rfl

/-- Any update of the CPU alone is `onCpu`. -/
theorem fold_onCpu (c : Cpu) (s : State) : ({ s with cpu := c } : State) = onCpu c s := rfl

/-! Fetching. -/

/-- If the bytes at PC decode, fetching gives the instruction, with PC past its bytes (R22, R170). -/
theorem fetchInstr_of_decode {u : State} {i : Instr}
    (h : decode (readBytes (instrLength (memRead u.cpu.pc u).1) u.cpu.pc u).1 = .ok (i, [])) :
    fetchInstr u = (i, (readBytes (instrLength (memRead u.cpu.pc u).1) u.cpu.pc u).2.setPc
      (u.cpu.pc + BitVec.ofNat 16 (instrLength (memRead u.cpu.pc u).1))) := by
  have rb0 : ∀ (w : Word) (s : State), readBytes 0 w s = ([], s) := fun _ _ => rfl
  have rb1 : ∀ n (w : Word) (s : State), readBytes (n + 1) w s =
      ((memRead w s).1 :: (readBytes n (w + 1) (memRead w s).2).1, (readBytes n (w + 1) (memRead w s).2).2) :=
    fun _ _ _ => rfl
  simp only [fetchInstr, fetchByte]
  simp only [instrLength] at h ⊢
  cases he : opcodeEntry (memRead u.cpu.pc u).1 with
  | f1 j =>
    simp only [he, Entry.length, rb1, rb0] at h ⊢
    simp [decode, he] at h
    simp [h, setPc_onCpu]
  | f2 j =>
    simp only [he, Entry.length, rb1, rb0] at h ⊢
    simp [decode, he] at h
    simp [setPc_onCpu, memRead_onCpu, BitVec.add_assoc]
    simpa using h
  | f3 j =>
    simp only [he, Entry.length, rb1, rb0] at h ⊢
    simp [decode, he] at h
    simp [setPc_onCpu, memRead_onCpu, BitVec.add_assoc]
    simpa [BitVec.add_assoc] using h

end Sys2Proof.Machine
end

