-- ==== Sys2Proof/Laws/Frame.lean ====
section
/-! SUPPORT. What a bus write leaves alone, said once: what every other address reads as, and what of the PPU stays. -/

namespace Sys2Proof.Machine

/-- A CPU write changes of a concrete cartridge at most its CPU chips. -/
theorem Cart.cpuWrite_concrete (a : Word) (v : Byte) {c : Cart} (h : c.oracle = false) :
    (c.cpuWrite a v).2 = { c with cpuChips := (c.cpuWrite a v).2.cpuChips } := by
  have e : c = { c with oracle := false } := by rw [← h]
  simp only [Cart.cpuWrite, h]
  cases chipsWrite c.cpuChips a.toNat v <;> simp [← e]

/-- A PPU write changes of a concrete cartridge at most its PPU chips. -/
theorem Cart.ppuWrite_concrete (a : BitVec 14) (v : Byte) {c : Cart} (h : c.oracle = false) :
    (c.ppuWrite a v).2 = { c with ppuChips := (c.ppuWrite a v).2.ppuChips } := by
  have e : c = { c with oracle := false } := by rw [← h]
  simp only [Cart.ppuWrite, h]
  cases chipsWrite c.ppuChips a.toNat v <;> simp [← e]

theorem ppuWriteClaim_concrete (a : BitVec 14) (v : Byte) {c : Cart} (h : c.oracle = false) :
    (ppuWriteClaim a v c).2 = { c with ppuChips := (ppuWriteClaim a v c).2.ppuChips } := by
  unfold ppuWriteClaim; split
  · exact Cart.ppuWrite_concrete a v h
  · rfl

/-- After a write to one address a concrete cartridge answers a read of another as before. -/
theorem Cart.cpuRead_after_write {a b : Word} (v : Byte) {c : Cart} (h : c.oracle = false) (hb : b ≠ a) :
    ((c.cpuWrite a v).2.cpuRead b).1 = (c.cpuRead b).1 := by
  have hn : b.toNat ≠ a.toNat := fun e => hb (BitVec.eq_of_toNat_eq e)
  simp only [Cart.cpuWrite, h]
  cases hw : chipsWrite c.cpuChips a.toNat v with
  | none => simp
  | some cs => simp [Cart.cpuRead, h, chipsRead_of_write hw hn]

/-- The byte a plain address reads as comes from the cartridge's answer and work memory alone. -/
theorem memRead_plain_value {a : Word} {s t : State} (hp : plainAddr a = true)
    (hc : (t.cart.cpuRead a).1 = (s.cart.cpuRead a).1) (hw : a.toNat < 0x2000 → t.workByte a = s.workByte a) :
    (memRead a t).1 = (memRead a s).1 := by
  unfold memRead
  simp only [hc]
  cases hx : (s.cart.cpuRead a).1 with
  | some b => rfl
  | none =>
    simp only [plainAddr, Bool.and_eq_true, Bool.not_eq_true', decide_eq_true_eq, Bool.and_eq_false_iff,
      decide_eq_false_iff_not] at hp
    unfold memReadInside
    by_cases h1 : a.toNat < 0x2000
    · simp only [h1, if_true]; simpa [State.workByte] using hw h1
    · have h2 : ¬ a.toNat < 0x4000 := by rcases hp with ⟨⟨h | h⟩, _⟩ <;> omega
      rw [if_neg h1, if_neg h2, if_neg hp.1.2, if_neg hp.2, if_neg h1, if_neg h2, if_neg hp.1.2, if_neg hp.2]

/-- Everything about an address that a state pair must share for the address to read the same. -/
structure ReadsSame (a : Word) (s t : State) : Prop where
  work : a.toNat < 0x2000 → t.workByte a = s.workByte a
  claim : s.cart.oracle = false → (t.cart.cpuRead a).1 = (s.cart.cpuRead a).1
  concrete : s.cart.oracle = false → t.cart.oracle = false

theorem ReadsSame.trans {a : Word} {s t u : State} (h : ReadsSame a s t) (k : ReadsSame a t u) : ReadsSame a s u :=
  ⟨fun x => (k.work x).trans (h.work x), fun x => (k.claim (h.concrete x)).trans (h.claim x),
    fun x => k.concrete (h.concrete x)⟩

/-- The CPU registers do not matter. -/
theorem ReadsSame.cpu {a : Word} (s : State) (c : Cpu) : ReadsSame a s { s with cpu := c } := ⟨fun _ => rfl, fun _ => rfl, id⟩

theorem ReadFrame.cart_eq {s t : State} (h : ReadFrame s t) : t.cart = { s.cart with asks := t.cart.asks } := by
  conv => lhs; rw [h]

/-- Bus reads change what no address reads as, but for port side effects. -/
theorem ReadsSame.ofReadFrame {a : Word} {s t : State} (h : ReadFrame s t) : ReadsSame a s t :=
  ⟨fun _ => by rw [h]; rfl, fun ho => by rw [h.cart_eq]; simp [Cart.cpuRead, ho], fun ho => by rw [h.cart_eq]; exact ho⟩

/-- A plain address reads the same. -/
theorem ReadsSame.value {a : Word} {s t : State} (h : ReadsSame a s t) (ho : s.cart.oracle = false)
    (hp : plainAddr a = true) : (memRead a t).1 = (memRead a s).1 := memRead_plain_value hp (h.claim ho) h.work

/-- What a port write leaves alone. -/
theorem portWrite_other (n : BitVec 3) (v : Byte) (s : State) :
    (portWrite n v s).ppu.frame = s.ppu.frame ∧ (portWrite n v s).orch = s.orch ∧
    (s.cart.oracle = false → (portWrite n v s).cart = { s.cart with ppuChips := (portWrite n v s).cart.ppuChips }) := by
  unfold portWrite
  split
  · exact ⟨rfl, rfl, fun _ => rfl⟩
  · exact ⟨rfl, rfl, fun _ => rfl⟩
  · exact ⟨rfl, rfl, fun _ => rfl⟩
  · exact ⟨rfl, rfl, fun _ => rfl⟩
  · refine ⟨?_, rfl, fun _ => rfl⟩
    simp only [State.mapPpu, writeScroll]; split <;> rfl
  · refine ⟨?_, rfl, fun _ => rfl⟩
    simp only [State.mapPpu, writeAddress]; split <;> rfl
  · unfold writeData
    refine ⟨?_, by simp, fun ho => ?_⟩
    · simp only [State.mapPpu, Ppu.stepV]; rw [ppuWrite_ppu]
    · have hb : ∀ k (c : Cart), c.oracle = false → (c.bank k).2 = c := by intro k c h; simp [Cart.bank, h]
      have hc := ppuWriteClaim_concrete ((s.ppu.v.setWidth 16).setWidth 14) v ho
      simp only [State.mapPpu_cart, ppuWrite, ppuWriteInside, ntIndex]
      split
      · exact hc
      · split
        · exact hc
        · split
          · simp only [State.mapPpu_cart, State.setCart_cart]
            rw [hb _ _ (by rw [hc]; exact ho)]
            exact hc
          · exact hc
  · exact ⟨rfl, rfl, fun _ => rfl⟩

/-- What a CPU-bus write leaves alone: every other address, the frame, and outside the PPU ports the whole PPU. -/
theorem memWrite_other (ea : Word) (v : Byte) (s : State) :
    (∀ a, sameCell a ea = false → ReadsSame a s (memWrite ea v s)) ∧
    (memWrite ea v s).ppu.frame = s.ppu.frame ∧
    (¬ (0x2000 ≤ ea.toNat ∧ ea.toNat < 0x4000) → (memWrite ea v s).ppu = s.ppu) := by
  have hne : ∀ a, sameCell a ea = false → a ≠ ea := by rintro a h rfl; simp [sameCell] at h
  have hconc : s.cart.oracle = false → (s.cart.cpuWrite ea v).2.oracle = false := by
    intro h; rw [Cart.cpuWrite_concrete _ _ h, h]
  have h0 : ∀ a, sameCell a ea = false → ReadsSame a s (s.setCart (s.cart.cpuWrite ea v).2) := fun a h =>
    ⟨fun _ => rfl, fun ho => Cart.cpuRead_after_write v ho (hne a h), hconc⟩
  unfold memWrite
  by_cases hk : (s.cart.cpuWrite ea v).1 = true
  · simp only [hk, if_true]
    exact ⟨h0, rfl, fun _ => rfl⟩
  · rw [if_neg hk]
    have e2 : (s.setCart (s.cart.cpuWrite ea v).2).ppu = s.ppu := rfl
    rw [← e2]
    generalize s.setCart (s.cart.cpuWrite ea v).2 = u at *
    unfold memWriteInside
    by_cases h1 : ea.toNat < 0x2000
    · rw [if_pos h1]
      refine ⟨fun a hs => (h0 a hs).trans ⟨fun ha => ?_, fun _ => rfl, id⟩, rfl, fun _ => rfl⟩
      have : a.toNat % 2048 ≠ ea.toNat % 2048 := by
        simp only [sameCell, Bool.or_eq_false_iff, Bool.and_eq_false_iff, decide_eq_false_iff_not] at hs
        omega
      exact Memory.read_put_ne _ _ _ this
    · rw [if_neg h1]
      by_cases h2 : ea.toNat < 0x4000
      · rw [if_pos h2]
        obtain ⟨hf, ho, hc⟩ := portWrite_other (ea.extractLsb' 0 3) v u
        refine ⟨fun a hs => (h0 a hs).trans ⟨fun _ => ?_, fun k => ?_, fun k => ?_⟩, hf, fun h => absurd ⟨by omega, h2⟩ h⟩
        · simp only [State.workByte, ho]
        · rw [hc k]; simp [Cart.cpuRead, k]
        · rw [hc k]; exact k
      · rw [if_neg h2]
        have same : ∀ t : State, t.orch.workRam = u.orch.workRam → t.cart = u.cart → ∀ a, ReadsSame a u t :=
          fun t hw hc a => ⟨fun _ => by simp only [State.workByte, hw], fun _ => by rw [hc], fun h => by rw [hc]; exact h⟩
        split
        · exact ⟨fun a hs => (h0 a hs).trans (same (u.mapOrch _) rfl rfl a), rfl, fun _ => rfl⟩
        · split
          · exact ⟨fun a hs => (h0 a hs).trans (same (dmaStart v u) rfl rfl a), rfl, fun _ => rfl⟩
          · split
            · exact ⟨fun a hs => (h0 a hs).trans (same (controllerLatch u) rfl rfl a), rfl, fun _ => rfl⟩
            · exact ⟨h0, rfl, fun _ => rfl⟩

/-- Only port 4 writes OAM. -/
theorem portWrite_oam (n : BitVec 3) (v : Byte) (s : State) (h : n ≠ 4) : (portWrite n v s).ppu.oam = s.ppu.oam := by
  unfold portWrite
  split <;> try rfl
  · rename_i k; exact absurd (BitVec.eq_of_toNat_eq k) h
  · simp only [State.mapPpu, writeScroll]; split <;> rfl
  · simp only [State.mapPpu, writeAddress]; split <;> rfl
  · unfold writeData; simp only [State.mapPpu, Ppu.stepV]; rw [ppuWrite_ppu]

/-- Only port 7 writes the video memories. -/
theorem portWrite_video (n : BitVec 3) (v : Byte) (s : State) (h : n ≠ 7) :
    (portWrite n v s).ppu.palette = s.ppu.palette ∧ (portWrite n v s).ppu.nametable = s.ppu.nametable ∧
    (portWrite n v s).ppu.pattern = s.ppu.pattern := by
  unfold portWrite
  split <;> try exact ⟨rfl, rfl, rfl⟩
  · simp only [State.mapPpu, writeScroll]; split <;> exact ⟨rfl, rfl, rfl⟩
  · simp only [State.mapPpu, writeAddress]; split <;> exact ⟨rfl, rfl, rfl⟩
  · rename_i k; exact absurd (BitVec.eq_of_toNat_eq k) h

/-- In the port window an unclaimed write is a port write; elsewhere, and where it is claimed, the PPU stays. -/
theorem memWrite_ppu (ea : Word) (v : Byte) (s : State) :
    (memWrite ea v s).ppu = s.ppu ∨ (0x2000 ≤ ea.toNat ∧ ea.toNat < 0x4000 ∧
      memWrite ea v s = portWrite (ea.extractLsb' 0 3) v (s.setCart (s.cart.cpuWrite ea v).2)) := by
  by_cases hw : 0x2000 ≤ ea.toNat ∧ ea.toNat < 0x4000
  · by_cases hk : (s.cart.cpuWrite ea v).1 = true
    · left; simp [memWrite, hk]
    · refine .inr ⟨hw.1, hw.2, ?_⟩
      unfold memWrite memWriteInside
      rw [if_neg hk, if_neg (by omega), if_pos hw.2]
  · exact .inl ((memWrite_other ea v s).2.2 hw)

theorem portNumber_toNat (ea : Word) : (ea.extractLsb' 0 3).toNat = ea.toNat % 8 := by simp

/-- OAM changes only by a write to a mirror of port 4. -/
theorem memWrite_oam {ea : Word} (v : Byte) (s : State)
    (h : ¬ (0x2000 ≤ ea.toNat ∧ ea.toNat < 0x4000 ∧ ea.toNat % 8 = 4)) : (memWrite ea v s).ppu.oam = s.ppu.oam := by
  obtain e | ⟨h1, h2, e⟩ := memWrite_ppu ea v s
  · rw [e]
  · rw [e]; refine portWrite_oam _ _ _ fun k => h ⟨h1, h2, ?_⟩
    rw [← portNumber_toNat, k]; rfl

/-- The video memories change only by a write to a mirror of port 7. -/
theorem memWrite_video {ea : Word} (v : Byte) (s : State)
    (h : ¬ (0x2000 ≤ ea.toNat ∧ ea.toNat < 0x4000 ∧ ea.toNat % 8 = 7)) :
    (memWrite ea v s).ppu.palette = s.ppu.palette ∧ (memWrite ea v s).ppu.nametable = s.ppu.nametable ∧
    (memWrite ea v s).ppu.pattern = s.ppu.pattern := by
  obtain e | ⟨h1, h2, e⟩ := memWrite_ppu ea v s
  · rw [e]; exact ⟨rfl, rfl, rfl⟩
  · rw [e]; refine portWrite_video _ _ _ fun k => h ⟨h1, h2, ?_⟩
    rw [← portNumber_toNat, k]; rfl

/-- A stack address lies in the work-memory window (R21). -/
theorem stackAddr_lt (p : Byte) : (stackAddr p).toNat < 0x2000 := by revert p; decide

/-- A push changes at most the byte at S. -/
theorem ReadsSame.push {a : Word} {s : State} (v : Byte) (h : sameCell a (stackAddr s.cpu.s) = false) :
    ReadsSame a s (push v s) := ((memWrite_other (stackAddr s.cpu.s) v s).1 a h).trans (ReadsSame.cpu _ _)

@[simp] theorem push_ppu (v : Byte) (s : State) : (push v s).ppu = s.ppu :=
  (memWrite_other (stackAddr s.cpu.s) v s).2.2 (by have := stackAddr_lt s.cpu.s; omega)

end Sys2Proof.Machine
end

