-- ==== Sys2Proof/Laws/PerInstr.lean ====
section
/-! SUPPORT. The family `Encoded`: the bytes of each instruction are exactly one instruction (R140, R141). -/

namespace Sys2Proof.Laws.Encoded

/-- The encoder's bytes are one whole instruction and nothing more. -/
def Statement (i : Instr) : Prop := i.wellFormed = true

/-- It is enough that the operand bytes are as many as the opcode asks for. -/
theorem ofLength {i : Instr} (op : Byte) (ho : i.opcode = op) (hl : i.operand.bytes.length + 1 = instrLength op) :
    Statement i := by
  subst ho
  simp only [Statement, Instr.wellFormed, encode, bytesWellFormed, formError, List.length_cons, hl, lt_irrefl, if_false,
    Option.isNone_none]

theorem oraIzx (b : Byte) : Statement (.oraIzx b) := ofLength 0x01 rfl rfl
theorem sloIzx (b : Byte) : Statement (.sloIzx b) := ofLength 0x03 rfl rfl
theorem nopZp04 (b : Byte) : Statement (.nopZp04 b) := ofLength 0x04 rfl rfl
theorem oraZp (b : Byte) : Statement (.oraZp b) := ofLength 0x05 rfl rfl
theorem aslZp (b : Byte) : Statement (.aslZp b) := ofLength 0x06 rfl rfl
theorem sloZp (b : Byte) : Statement (.sloZp b) := ofLength 0x07 rfl rfl
theorem oraImm (b : Byte) : Statement (.oraImm b) := ofLength 0x09 rfl rfl
theorem anc0B (b : Byte) : Statement (.anc0B b) := ofLength 0x0B rfl rfl
theorem nopAbs0C (w : Word) : Statement (.nopAbs0C w) := ofLength 0x0C rfl rfl
theorem oraAbs (w : Word) : Statement (.oraAbs w) := ofLength 0x0D rfl rfl
theorem aslAbs (w : Word) : Statement (.aslAbs w) := ofLength 0x0E rfl rfl
theorem sloAbs (w : Word) : Statement (.sloAbs w) := ofLength 0x0F rfl rfl
theorem bpl (b : Byte) : Statement (.bpl b) := ofLength 0x10 rfl rfl
theorem oraIzy (b : Byte) : Statement (.oraIzy b) := ofLength 0x11 rfl rfl
theorem sloIzy (b : Byte) : Statement (.sloIzy b) := ofLength 0x13 rfl rfl
theorem nopZpx14 (b : Byte) : Statement (.nopZpx14 b) := ofLength 0x14 rfl rfl
theorem oraZpx (b : Byte) : Statement (.oraZpx b) := ofLength 0x15 rfl rfl
theorem aslZpx (b : Byte) : Statement (.aslZpx b) := ofLength 0x16 rfl rfl
theorem sloZpx (b : Byte) : Statement (.sloZpx b) := ofLength 0x17 rfl rfl
theorem oraAby (w : Word) : Statement (.oraAby w) := ofLength 0x19 rfl rfl
theorem sloAby (w : Word) : Statement (.sloAby w) := ofLength 0x1B rfl rfl
theorem nopAbx1C (w : Word) : Statement (.nopAbx1C w) := ofLength 0x1C rfl rfl
theorem oraAbx (w : Word) : Statement (.oraAbx w) := ofLength 0x1D rfl rfl
theorem aslAbx (w : Word) : Statement (.aslAbx w) := ofLength 0x1E rfl rfl
theorem sloAbx (w : Word) : Statement (.sloAbx w) := ofLength 0x1F rfl rfl
theorem jsr (w : Word) : Statement (.jsr w) := ofLength 0x20 rfl rfl
theorem andIzx (b : Byte) : Statement (.andIzx b) := ofLength 0x21 rfl rfl
theorem rlaIzx (b : Byte) : Statement (.rlaIzx b) := ofLength 0x23 rfl rfl
theorem bitZp (b : Byte) : Statement (.bitZp b) := ofLength 0x24 rfl rfl
theorem andZp (b : Byte) : Statement (.andZp b) := ofLength 0x25 rfl rfl
theorem rolZp (b : Byte) : Statement (.rolZp b) := ofLength 0x26 rfl rfl
theorem rlaZp (b : Byte) : Statement (.rlaZp b) := ofLength 0x27 rfl rfl
theorem andImm (b : Byte) : Statement (.andImm b) := ofLength 0x29 rfl rfl
theorem anc2B (b : Byte) : Statement (.anc2B b) := ofLength 0x2B rfl rfl
theorem bitAbs (w : Word) : Statement (.bitAbs w) := ofLength 0x2C rfl rfl
theorem andAbs (w : Word) : Statement (.andAbs w) := ofLength 0x2D rfl rfl
theorem rolAbs (w : Word) : Statement (.rolAbs w) := ofLength 0x2E rfl rfl
theorem rlaAbs (w : Word) : Statement (.rlaAbs w) := ofLength 0x2F rfl rfl
theorem bmi (b : Byte) : Statement (.bmi b) := ofLength 0x30 rfl rfl
theorem andIzy (b : Byte) : Statement (.andIzy b) := ofLength 0x31 rfl rfl
theorem rlaIzy (b : Byte) : Statement (.rlaIzy b) := ofLength 0x33 rfl rfl
theorem nopZpx34 (b : Byte) : Statement (.nopZpx34 b) := ofLength 0x34 rfl rfl
theorem andZpx (b : Byte) : Statement (.andZpx b) := ofLength 0x35 rfl rfl
theorem rolZpx (b : Byte) : Statement (.rolZpx b) := ofLength 0x36 rfl rfl
theorem rlaZpx (b : Byte) : Statement (.rlaZpx b) := ofLength 0x37 rfl rfl
theorem andAby (w : Word) : Statement (.andAby w) := ofLength 0x39 rfl rfl
theorem rlaAby (w : Word) : Statement (.rlaAby w) := ofLength 0x3B rfl rfl
theorem nopAbx3C (w : Word) : Statement (.nopAbx3C w) := ofLength 0x3C rfl rfl
theorem andAbx (w : Word) : Statement (.andAbx w) := ofLength 0x3D rfl rfl
theorem rolAbx (w : Word) : Statement (.rolAbx w) := ofLength 0x3E rfl rfl
theorem rlaAbx (w : Word) : Statement (.rlaAbx w) := ofLength 0x3F rfl rfl
theorem eorIzx (b : Byte) : Statement (.eorIzx b) := ofLength 0x41 rfl rfl
theorem sreIzx (b : Byte) : Statement (.sreIzx b) := ofLength 0x43 rfl rfl
theorem nopZp44 (b : Byte) : Statement (.nopZp44 b) := ofLength 0x44 rfl rfl
theorem eorZp (b : Byte) : Statement (.eorZp b) := ofLength 0x45 rfl rfl
theorem lsrZp (b : Byte) : Statement (.lsrZp b) := ofLength 0x46 rfl rfl
theorem sreZp (b : Byte) : Statement (.sreZp b) := ofLength 0x47 rfl rfl
theorem eorImm (b : Byte) : Statement (.eorImm b) := ofLength 0x49 rfl rfl
theorem alr (b : Byte) : Statement (.alr b) := ofLength 0x4B rfl rfl
theorem jmpAbs (w : Word) : Statement (.jmpAbs w) := ofLength 0x4C rfl rfl
theorem eorAbs (w : Word) : Statement (.eorAbs w) := ofLength 0x4D rfl rfl
theorem lsrAbs (w : Word) : Statement (.lsrAbs w) := ofLength 0x4E rfl rfl
theorem sreAbs (w : Word) : Statement (.sreAbs w) := ofLength 0x4F rfl rfl
theorem bvc (b : Byte) : Statement (.bvc b) := ofLength 0x50 rfl rfl
theorem eorIzy (b : Byte) : Statement (.eorIzy b) := ofLength 0x51 rfl rfl
theorem sreIzy (b : Byte) : Statement (.sreIzy b) := ofLength 0x53 rfl rfl
theorem nopZpx54 (b : Byte) : Statement (.nopZpx54 b) := ofLength 0x54 rfl rfl
theorem eorZpx (b : Byte) : Statement (.eorZpx b) := ofLength 0x55 rfl rfl
theorem lsrZpx (b : Byte) : Statement (.lsrZpx b) := ofLength 0x56 rfl rfl
theorem sreZpx (b : Byte) : Statement (.sreZpx b) := ofLength 0x57 rfl rfl
theorem eorAby (w : Word) : Statement (.eorAby w) := ofLength 0x59 rfl rfl
theorem sreAby (w : Word) : Statement (.sreAby w) := ofLength 0x5B rfl rfl
theorem nopAbx5C (w : Word) : Statement (.nopAbx5C w) := ofLength 0x5C rfl rfl
theorem eorAbx (w : Word) : Statement (.eorAbx w) := ofLength 0x5D rfl rfl
theorem lsrAbx (w : Word) : Statement (.lsrAbx w) := ofLength 0x5E rfl rfl
theorem sreAbx (w : Word) : Statement (.sreAbx w) := ofLength 0x5F rfl rfl
theorem adcIzx (b : Byte) : Statement (.adcIzx b) := ofLength 0x61 rfl rfl
theorem rraIzx (b : Byte) : Statement (.rraIzx b) := ofLength 0x63 rfl rfl
theorem nopZp64 (b : Byte) : Statement (.nopZp64 b) := ofLength 0x64 rfl rfl
theorem adcZp (b : Byte) : Statement (.adcZp b) := ofLength 0x65 rfl rfl
theorem rorZp (b : Byte) : Statement (.rorZp b) := ofLength 0x66 rfl rfl
theorem rraZp (b : Byte) : Statement (.rraZp b) := ofLength 0x67 rfl rfl
theorem adcImm (b : Byte) : Statement (.adcImm b) := ofLength 0x69 rfl rfl
theorem arr (b : Byte) : Statement (.arr b) := ofLength 0x6B rfl rfl
theorem jmpInd (w : Word) : Statement (.jmpInd w) := ofLength 0x6C rfl rfl
theorem adcAbs (w : Word) : Statement (.adcAbs w) := ofLength 0x6D rfl rfl
theorem rorAbs (w : Word) : Statement (.rorAbs w) := ofLength 0x6E rfl rfl
theorem rraAbs (w : Word) : Statement (.rraAbs w) := ofLength 0x6F rfl rfl
theorem bvs (b : Byte) : Statement (.bvs b) := ofLength 0x70 rfl rfl
theorem adcIzy (b : Byte) : Statement (.adcIzy b) := ofLength 0x71 rfl rfl
theorem rraIzy (b : Byte) : Statement (.rraIzy b) := ofLength 0x73 rfl rfl
theorem nopZpx74 (b : Byte) : Statement (.nopZpx74 b) := ofLength 0x74 rfl rfl
theorem adcZpx (b : Byte) : Statement (.adcZpx b) := ofLength 0x75 rfl rfl
theorem rorZpx (b : Byte) : Statement (.rorZpx b) := ofLength 0x76 rfl rfl
theorem rraZpx (b : Byte) : Statement (.rraZpx b) := ofLength 0x77 rfl rfl
theorem adcAby (w : Word) : Statement (.adcAby w) := ofLength 0x79 rfl rfl
theorem rraAby (w : Word) : Statement (.rraAby w) := ofLength 0x7B rfl rfl
theorem nopAbx7C (w : Word) : Statement (.nopAbx7C w) := ofLength 0x7C rfl rfl
theorem adcAbx (w : Word) : Statement (.adcAbx w) := ofLength 0x7D rfl rfl
theorem rorAbx (w : Word) : Statement (.rorAbx w) := ofLength 0x7E rfl rfl
theorem rraAbx (w : Word) : Statement (.rraAbx w) := ofLength 0x7F rfl rfl
theorem nopImm80 (b : Byte) : Statement (.nopImm80 b) := ofLength 0x80 rfl rfl
theorem staIzx (b : Byte) : Statement (.staIzx b) := ofLength 0x81 rfl rfl
theorem nopImm82 (b : Byte) : Statement (.nopImm82 b) := ofLength 0x82 rfl rfl
theorem saxIzx (b : Byte) : Statement (.saxIzx b) := ofLength 0x83 rfl rfl
theorem styZp (b : Byte) : Statement (.styZp b) := ofLength 0x84 rfl rfl
theorem staZp (b : Byte) : Statement (.staZp b) := ofLength 0x85 rfl rfl
theorem stxZp (b : Byte) : Statement (.stxZp b) := ofLength 0x86 rfl rfl
theorem saxZp (b : Byte) : Statement (.saxZp b) := ofLength 0x87 rfl rfl
theorem nopImm89 (b : Byte) : Statement (.nopImm89 b) := ofLength 0x89 rfl rfl
theorem ane (b : Byte) : Statement (.ane b) := ofLength 0x8B rfl rfl
theorem styAbs (w : Word) : Statement (.styAbs w) := ofLength 0x8C rfl rfl
theorem staAbs (w : Word) : Statement (.staAbs w) := ofLength 0x8D rfl rfl
theorem stxAbs (w : Word) : Statement (.stxAbs w) := ofLength 0x8E rfl rfl
theorem saxAbs (w : Word) : Statement (.saxAbs w) := ofLength 0x8F rfl rfl
theorem bcc (b : Byte) : Statement (.bcc b) := ofLength 0x90 rfl rfl
theorem staIzy (b : Byte) : Statement (.staIzy b) := ofLength 0x91 rfl rfl
theorem shaIzy (b : Byte) : Statement (.shaIzy b) := ofLength 0x93 rfl rfl
theorem styZpx (b : Byte) : Statement (.styZpx b) := ofLength 0x94 rfl rfl
theorem staZpx (b : Byte) : Statement (.staZpx b) := ofLength 0x95 rfl rfl
theorem stxZpy (b : Byte) : Statement (.stxZpy b) := ofLength 0x96 rfl rfl
theorem saxZpy (b : Byte) : Statement (.saxZpy b) := ofLength 0x97 rfl rfl
theorem staAby (w : Word) : Statement (.staAby w) := ofLength 0x99 rfl rfl
theorem tas (w : Word) : Statement (.tas w) := ofLength 0x9B rfl rfl
theorem shy (w : Word) : Statement (.shy w) := ofLength 0x9C rfl rfl
theorem staAbx (w : Word) : Statement (.staAbx w) := ofLength 0x9D rfl rfl
theorem shx (w : Word) : Statement (.shx w) := ofLength 0x9E rfl rfl
theorem shaAby (w : Word) : Statement (.shaAby w) := ofLength 0x9F rfl rfl
theorem ldyImm (b : Byte) : Statement (.ldyImm b) := ofLength 0xA0 rfl rfl
theorem ldaIzx (b : Byte) : Statement (.ldaIzx b) := ofLength 0xA1 rfl rfl
theorem ldxImm (b : Byte) : Statement (.ldxImm b) := ofLength 0xA2 rfl rfl
theorem laxIzx (b : Byte) : Statement (.laxIzx b) := ofLength 0xA3 rfl rfl
theorem ldyZp (b : Byte) : Statement (.ldyZp b) := ofLength 0xA4 rfl rfl
theorem ldaZp (b : Byte) : Statement (.ldaZp b) := ofLength 0xA5 rfl rfl
theorem ldxZp (b : Byte) : Statement (.ldxZp b) := ofLength 0xA6 rfl rfl
theorem laxZp (b : Byte) : Statement (.laxZp b) := ofLength 0xA7 rfl rfl
theorem ldaImm (b : Byte) : Statement (.ldaImm b) := ofLength 0xA9 rfl rfl
theorem lxa (b : Byte) : Statement (.lxa b) := ofLength 0xAB rfl rfl
theorem ldyAbs (w : Word) : Statement (.ldyAbs w) := ofLength 0xAC rfl rfl
theorem ldaAbs (w : Word) : Statement (.ldaAbs w) := ofLength 0xAD rfl rfl
theorem ldxAbs (w : Word) : Statement (.ldxAbs w) := ofLength 0xAE rfl rfl
theorem laxAbs (w : Word) : Statement (.laxAbs w) := ofLength 0xAF rfl rfl
theorem bcs (b : Byte) : Statement (.bcs b) := ofLength 0xB0 rfl rfl
theorem ldaIzy (b : Byte) : Statement (.ldaIzy b) := ofLength 0xB1 rfl rfl
theorem laxIzy (b : Byte) : Statement (.laxIzy b) := ofLength 0xB3 rfl rfl
theorem ldyZpx (b : Byte) : Statement (.ldyZpx b) := ofLength 0xB4 rfl rfl
theorem ldaZpx (b : Byte) : Statement (.ldaZpx b) := ofLength 0xB5 rfl rfl
theorem ldxZpy (b : Byte) : Statement (.ldxZpy b) := ofLength 0xB6 rfl rfl
theorem laxZpy (b : Byte) : Statement (.laxZpy b) := ofLength 0xB7 rfl rfl
theorem ldaAby (w : Word) : Statement (.ldaAby w) := ofLength 0xB9 rfl rfl
theorem las (w : Word) : Statement (.las w) := ofLength 0xBB rfl rfl
theorem ldyAbx (w : Word) : Statement (.ldyAbx w) := ofLength 0xBC rfl rfl
theorem ldaAbx (w : Word) : Statement (.ldaAbx w) := ofLength 0xBD rfl rfl
theorem ldxAby (w : Word) : Statement (.ldxAby w) := ofLength 0xBE rfl rfl
theorem laxAby (w : Word) : Statement (.laxAby w) := ofLength 0xBF rfl rfl
theorem cpyImm (b : Byte) : Statement (.cpyImm b) := ofLength 0xC0 rfl rfl
theorem cmpIzx (b : Byte) : Statement (.cmpIzx b) := ofLength 0xC1 rfl rfl
theorem nopImmC2 (b : Byte) : Statement (.nopImmC2 b) := ofLength 0xC2 rfl rfl
theorem dcpIzx (b : Byte) : Statement (.dcpIzx b) := ofLength 0xC3 rfl rfl
theorem cpyZp (b : Byte) : Statement (.cpyZp b) := ofLength 0xC4 rfl rfl
theorem cmpZp (b : Byte) : Statement (.cmpZp b) := ofLength 0xC5 rfl rfl
theorem decZp (b : Byte) : Statement (.decZp b) := ofLength 0xC6 rfl rfl
theorem dcpZp (b : Byte) : Statement (.dcpZp b) := ofLength 0xC7 rfl rfl
theorem cmpImm (b : Byte) : Statement (.cmpImm b) := ofLength 0xC9 rfl rfl
theorem axs (b : Byte) : Statement (.axs b) := ofLength 0xCB rfl rfl
theorem cpyAbs (w : Word) : Statement (.cpyAbs w) := ofLength 0xCC rfl rfl
theorem cmpAbs (w : Word) : Statement (.cmpAbs w) := ofLength 0xCD rfl rfl
theorem decAbs (w : Word) : Statement (.decAbs w) := ofLength 0xCE rfl rfl
theorem dcpAbs (w : Word) : Statement (.dcpAbs w) := ofLength 0xCF rfl rfl
theorem bne (b : Byte) : Statement (.bne b) := ofLength 0xD0 rfl rfl
theorem cmpIzy (b : Byte) : Statement (.cmpIzy b) := ofLength 0xD1 rfl rfl
theorem dcpIzy (b : Byte) : Statement (.dcpIzy b) := ofLength 0xD3 rfl rfl
theorem nopZpxD4 (b : Byte) : Statement (.nopZpxD4 b) := ofLength 0xD4 rfl rfl
theorem cmpZpx (b : Byte) : Statement (.cmpZpx b) := ofLength 0xD5 rfl rfl
theorem decZpx (b : Byte) : Statement (.decZpx b) := ofLength 0xD6 rfl rfl
theorem dcpZpx (b : Byte) : Statement (.dcpZpx b) := ofLength 0xD7 rfl rfl
theorem cmpAby (w : Word) : Statement (.cmpAby w) := ofLength 0xD9 rfl rfl
theorem dcpAby (w : Word) : Statement (.dcpAby w) := ofLength 0xDB rfl rfl
theorem nopAbxDC (w : Word) : Statement (.nopAbxDC w) := ofLength 0xDC rfl rfl
theorem cmpAbx (w : Word) : Statement (.cmpAbx w) := ofLength 0xDD rfl rfl
theorem decAbx (w : Word) : Statement (.decAbx w) := ofLength 0xDE rfl rfl
theorem dcpAbx (w : Word) : Statement (.dcpAbx w) := ofLength 0xDF rfl rfl
theorem cpxImm (b : Byte) : Statement (.cpxImm b) := ofLength 0xE0 rfl rfl
theorem sbcIzx (b : Byte) : Statement (.sbcIzx b) := ofLength 0xE1 rfl rfl
theorem nopImmE2 (b : Byte) : Statement (.nopImmE2 b) := ofLength 0xE2 rfl rfl
theorem iscIzx (b : Byte) : Statement (.iscIzx b) := ofLength 0xE3 rfl rfl
theorem cpxZp (b : Byte) : Statement (.cpxZp b) := ofLength 0xE4 rfl rfl
theorem sbcZp (b : Byte) : Statement (.sbcZp b) := ofLength 0xE5 rfl rfl
theorem incZp (b : Byte) : Statement (.incZp b) := ofLength 0xE6 rfl rfl
theorem iscZp (b : Byte) : Statement (.iscZp b) := ofLength 0xE7 rfl rfl
theorem sbcImm (b : Byte) : Statement (.sbcImm b) := ofLength 0xE9 rfl rfl
theorem sbcImmEB (b : Byte) : Statement (.sbcImmEB b) := ofLength 0xEB rfl rfl
theorem cpxAbs (w : Word) : Statement (.cpxAbs w) := ofLength 0xEC rfl rfl
theorem sbcAbs (w : Word) : Statement (.sbcAbs w) := ofLength 0xED rfl rfl
theorem incAbs (w : Word) : Statement (.incAbs w) := ofLength 0xEE rfl rfl
theorem iscAbs (w : Word) : Statement (.iscAbs w) := ofLength 0xEF rfl rfl
theorem beq (b : Byte) : Statement (.beq b) := ofLength 0xF0 rfl rfl
theorem sbcIzy (b : Byte) : Statement (.sbcIzy b) := ofLength 0xF1 rfl rfl
theorem iscIzy (b : Byte) : Statement (.iscIzy b) := ofLength 0xF3 rfl rfl
theorem nopZpxF4 (b : Byte) : Statement (.nopZpxF4 b) := ofLength 0xF4 rfl rfl
theorem sbcZpx (b : Byte) : Statement (.sbcZpx b) := ofLength 0xF5 rfl rfl
theorem incZpx (b : Byte) : Statement (.incZpx b) := ofLength 0xF6 rfl rfl
theorem iscZpx (b : Byte) : Statement (.iscZpx b) := ofLength 0xF7 rfl rfl
theorem sbcAby (w : Word) : Statement (.sbcAby w) := ofLength 0xF9 rfl rfl
theorem iscAby (w : Word) : Statement (.iscAby w) := ofLength 0xFB rfl rfl
theorem nopAbxFC (w : Word) : Statement (.nopAbxFC w) := ofLength 0xFC rfl rfl
theorem sbcAbx (w : Word) : Statement (.sbcAbx w) := ofLength 0xFD rfl rfl
theorem incAbx (w : Word) : Statement (.incAbx w) := ofLength 0xFE rfl rfl
theorem iscAbx (w : Word) : Statement (.iscAbx w) := ofLength 0xFF rfl rfl
theorem brk : Statement .brk := ofLength 0x00 rfl rfl
theorem jam02 : Statement .jam02 := ofLength 0x02 rfl rfl
theorem php : Statement .php := ofLength 0x08 rfl rfl
theorem aslAcc : Statement .aslAcc := ofLength 0x0A rfl rfl
theorem jam12 : Statement .jam12 := ofLength 0x12 rfl rfl
theorem clc : Statement .clc := ofLength 0x18 rfl rfl
theorem nopImp1A : Statement .nopImp1A := ofLength 0x1A rfl rfl
theorem jam22 : Statement .jam22 := ofLength 0x22 rfl rfl
theorem plp : Statement .plp := ofLength 0x28 rfl rfl
theorem rolAcc : Statement .rolAcc := ofLength 0x2A rfl rfl
theorem jam32 : Statement .jam32 := ofLength 0x32 rfl rfl
theorem sec : Statement .sec := ofLength 0x38 rfl rfl
theorem nopImp3A : Statement .nopImp3A := ofLength 0x3A rfl rfl
theorem rti : Statement .rti := ofLength 0x40 rfl rfl
theorem jam42 : Statement .jam42 := ofLength 0x42 rfl rfl
theorem pha : Statement .pha := ofLength 0x48 rfl rfl
theorem lsrAcc : Statement .lsrAcc := ofLength 0x4A rfl rfl
theorem jam52 : Statement .jam52 := ofLength 0x52 rfl rfl
theorem cli : Statement .cli := ofLength 0x58 rfl rfl
theorem nopImp5A : Statement .nopImp5A := ofLength 0x5A rfl rfl
theorem rts : Statement .rts := ofLength 0x60 rfl rfl
theorem jam62 : Statement .jam62 := ofLength 0x62 rfl rfl
theorem pla : Statement .pla := ofLength 0x68 rfl rfl
theorem rorAcc : Statement .rorAcc := ofLength 0x6A rfl rfl
theorem jam72 : Statement .jam72 := ofLength 0x72 rfl rfl
theorem sei : Statement .sei := ofLength 0x78 rfl rfl
theorem nopImp7A : Statement .nopImp7A := ofLength 0x7A rfl rfl
theorem dey : Statement .dey := ofLength 0x88 rfl rfl
theorem txa : Statement .txa := ofLength 0x8A rfl rfl
theorem jam92 : Statement .jam92 := ofLength 0x92 rfl rfl
theorem tya : Statement .tya := ofLength 0x98 rfl rfl
theorem txs : Statement .txs := ofLength 0x9A rfl rfl
theorem tay : Statement .tay := ofLength 0xA8 rfl rfl
theorem tax : Statement .tax := ofLength 0xAA rfl rfl
theorem jamB2 : Statement .jamB2 := ofLength 0xB2 rfl rfl
theorem clv : Statement .clv := ofLength 0xB8 rfl rfl
theorem tsx : Statement .tsx := ofLength 0xBA rfl rfl
theorem iny : Statement .iny := ofLength 0xC8 rfl rfl
theorem dex : Statement .dex := ofLength 0xCA rfl rfl
theorem jamD2 : Statement .jamD2 := ofLength 0xD2 rfl rfl
theorem cld : Statement .cld := ofLength 0xD8 rfl rfl
theorem nopImpDA : Statement .nopImpDA := ofLength 0xDA rfl rfl
theorem inx : Statement .inx := ofLength 0xE8 rfl rfl
theorem nop : Statement .nop := ofLength 0xEA rfl rfl
theorem jamF2 : Statement .jamF2 := ofLength 0xF2 rfl rfl
theorem sed : Statement .sed := ofLength 0xF8 rfl rfl
theorem nopImpFA : Statement .nopImpFA := ofLength 0xFA rfl rfl

end Sys2Proof.Laws.Encoded
end

