-- ==== Sys2Proof/Laws/Scroll.lean ====
section
/-! SUPPORT. The fields of the scroll registers as numbers (R33), so that claims about them are claims of arithmetic. -/

namespace Sys2Proof.Machine

/-- The value of two fields side by side. -/
theorem append_toNat {a b : Nat} (x : BitVec a) (y : BitVec b) : (x ++ y).toNat = x.toNat * 2^b + y.toNat := by
  rw [BitVec.toNat_append, ← Nat.shiftLeft_add_eq_or_of_lt y.isLt, Nat.shiftLeft_eq]

/-- A scroll register from its fields, as a number (R33). -/
theorem scroll_toNat (fy : BitVec 3) (ny nx : BitVec 1) (cy cx : BitVec 5) :
    (scroll fy ny nx cy cx).toNat = fy.toNat * 4096 + ny.toNat * 2048 + nx.toNat * 1024 + cy.toNat * 32 + cx.toNat := by
  simp only [scroll, append_toNat]; omega

/-- The value of a field. -/
theorem extract_toNat {w : Nat} (x : BitVec w) (a b : Nat) : (x.extractLsb' a b).toNat = x.toNat / 2^a % 2^b := by
  simp [BitVec.extractLsb'_toNat, Nat.shiftRight_eq_div_pow]

theorem coarseX_toNat (v : BitVec 15) : (coarseX v).toNat = v.toNat % 32 := by simp only [coarseX, extract_toNat]; omega
theorem coarseY_toNat (v : BitVec 15) : (coarseY v).toNat = v.toNat / 32 % 32 := by
  simp only [coarseY, extract_toNat]; omega
theorem ntX_toNat (v : BitVec 15) : (ntX v).toNat = v.toNat / 1024 % 2 := by simp only [ntX, extract_toNat]; omega
theorem ntY_toNat (v : BitVec 15) : (ntY v).toNat = v.toNat / 2048 % 2 := by simp only [ntY, extract_toNat]; omega
theorem fineY_toNat (v : BitVec 15) : (fineY v).toNat = v.toNat / 4096 := by
  simp only [fineY, extract_toNat]; have := v.isLt; omega

theorem flip_toNat (b : BitVec 1) : (b ^^^ 1).toNat = 1 - b.toNat := by revert b; decide

end Sys2Proof.Machine
end

