-- ==== Sys2Proof/Tests/Slice0.lean ====
section
/-! SUPPORT. The model's own tests, and the witnesses of the statements' hypotheses. Every expected value comes from
spec/95_test_vectors.md or spec/opcode_table.json, by hand. Unwritten memory is a free value, so a test reads only bytes it
has written. -/

namespace Sys2Proof.Tests

open Sys2Proof.Machine

-- One theorem after another: each of these is a kernel evaluation, and many at once take too many threads.
set_option Elab.async false

/-! Instructions: one step each. The expected values are the derived vectors V40.1 to V46.39 of spec/95_test_vectors.md
(start values not given there: A = X = Y = 0, S = 0xFD, P = 0x24). -/

/-- A start: the bytes at `pc` come from the cartridge, `mem` gives bytes of work memory or of the cartridge. -/
structure Start where
  bytes : List Byte
  pc : Word := 0x8000
  a : Byte := 0x00
  x : Byte := 0x00
  y : Byte := 0x00
  s : Byte := 0xFD
  p : Byte := 0x24
  mem : List (Word × Byte) := []

/-- What a step left: A, X, Y, S, P; PC; the cost; some bytes of work memory. -/
structure End where
  regs : List Byte
  pc : Word
  cost : Nat
  mem : List Byte
deriving DecidableEq

/-- One-byte chips from an address upwards. -/
def rom : Word → List Byte → List Chip
  | _, [] => []
  | a, b :: rest => Chip.one a b :: rom (a + 1) rest

/-- Give an address a byte: work memory below 0x2000, the cartridge elsewhere. -/
def supply (s : State) (c : Word × Byte) : State :=
  if c.1.toNat < 0x2000 then s.setWork c.1 c.2
  else s.setCart { s.cart with cpuChips := Chip.one c.1 c.2 :: s.cart.cpuChips }

/-- The machine a start describes, about to fetch. -/
def Start.state (v : Start) : State :=
  v.mem.foldl supply { State.reset with
    cpu := { a := v.a, x := v.x, y := v.y, s := v.s, p := Flags.ofByte v.p, pc := v.pc, cycles := 0 }
    cart := { Cart.empty with cpuChips := rom v.pc v.bytes } }

/-- One step. The cost is what is owed after the fetching tick, plus that tick. -/
def run (v : Start) (peek : List Word) : Option End :=
  match step v.state with
  | .next t => some ⟨[t.cpu.a, t.cpu.x, t.cpu.y, t.cpu.s, t.cpu.p.toByte], t.cpu.pc, t.cpu.cycles + 1, peek.map t.workByte⟩
  | _ => none

theorem test_V40_1_ldaZpx : run { bytes := [0xB5, 0xFF], x := 0x02, mem := [(0x0001, 0x77), (0x0101, 0x66)] } [] =
    some ⟨[0x77, 0x02, 0x00, 0xFD, 0x24], 0x8002, 4, []⟩ := by decide +kernel

theorem test_V40_2_ldxZpy : run { bytes := [0xB6, 0xF0], y := 0x20, mem := [(0x0010, 0x55)] } [] =
    some ⟨[0x00, 0x55, 0x20, 0xFD, 0x24], 0x8002, 4, []⟩ := by decide +kernel

theorem test_V40_3_ldaIzx : run { bytes := [0xA1, 0xFF], mem := [(0x0000, 0x12), (0x00FF, 0x34), (0x1234, 0x9A)] } [] =
    some ⟨[0x9A, 0x00, 0x00, 0xFD, 0xA4], 0x8002, 6, []⟩ := by decide +kernel

theorem test_V40_5_ldaIzy : run { bytes := [0xB1, 0x10], y := 0x01, mem := [(0x0010, 0xFF), (0x0011, 0x02), (0x0300, 0x5A)] } [] =
    some ⟨[0x5A, 0x00, 0x01, 0xFD, 0x24], 0x8002, 6, []⟩ := by decide +kernel

theorem test_V40_7_ldaIzy : run { bytes := [0xB1, 0xFF], mem := [(0x0000, 0x04), (0x00FF, 0x00), (0x0400, 0x21)] } [] =
    some ⟨[0x21, 0x00, 0x00, 0xFD, 0x24], 0x8002, 5, []⟩ := by decide +kernel

theorem test_V40_8_ldaAbx : run { bytes := [0xBD, 0xFF, 0x02], x := 0x01, mem := [(0x0300, 0x11)] } [] =
    some ⟨[0x11, 0x01, 0x00, 0xFD, 0x24], 0x8003, 5, []⟩ := by decide +kernel

theorem test_V40_10_staAbx : run { bytes := [0x9D, 0xFF, 0x02], a := 0x33, x := 0x01 } [0x0300] =
    some ⟨[0x33, 0x01, 0x00, 0xFD, 0x24], 0x8003, 5, [0x33]⟩ := by decide +kernel

theorem test_V40_11_ldaAby : run { bytes := [0xB9, 0xFF, 0xFF], y := 0x02, mem := [(0x0001, 0x44)] } [] =
    some ⟨[0x44, 0x00, 0x02, 0xFD, 0x24], 0x8003, 5, []⟩ := by decide +kernel

theorem test_V40_12_jmpInd : run { bytes := [0x6C, 0xFF, 0x02], mem := [(0x0200, 0x90), (0x02FF, 0x00), (0x0300, 0x80)] } [] =
    some ⟨[0x00, 0x00, 0x00, 0xFD, 0x24], 0x9000, 5, []⟩ := by decide +kernel

theorem test_V40_13_jmpInd : run { bytes := [0x6C, 0x10, 0x02], mem := [(0x0210, 0x34), (0x0211, 0x12)] } [] =
    some ⟨[0x00, 0x00, 0x00, 0xFD, 0x24], 0x1234, 5, []⟩ := by decide +kernel

theorem test_V41_1_ldaImm : run { bytes := [0xA9, 0x00], a := 0x55 } [] =
    some ⟨[0x00, 0x00, 0x00, 0xFD, 0x26], 0x8002, 2, []⟩ := by decide +kernel

theorem test_V41_2_ldaImm : run { bytes := [0xA9, 0x80] } [] =
    some ⟨[0x80, 0x00, 0x00, 0xFD, 0xA4], 0x8002, 2, []⟩ := by decide +kernel

theorem test_V41_3_ldxZp : run { bytes := [0xA6, 0x10], mem := [(0x0010, 0x7F)] } [] =
    some ⟨[0x00, 0x7F, 0x00, 0xFD, 0x24], 0x8002, 3, []⟩ := by decide +kernel

theorem test_V41_4_ldyAbs : run { bytes := [0xAC, 0x34, 0x12], mem := [(0x1234, 0xFF)] } [] =
    some ⟨[0x00, 0x00, 0xFF, 0xFD, 0xA4], 0x8003, 4, []⟩ := by decide +kernel

theorem test_V41_5_staZp : run { bytes := [0x85, 0x10] } [0x0010] =
    some ⟨[0x00, 0x00, 0x00, 0xFD, 0x24], 0x8002, 3, [0x00]⟩ := by decide +kernel

theorem test_V41_6_stxZpy : run { bytes := [0x96, 0x10], x := 0x9C, y := 0xFF } [0x000F] =
    some ⟨[0x00, 0x9C, 0xFF, 0xFD, 0x24], 0x8002, 4, [0x9C]⟩ := by decide +kernel

theorem test_V41_7_styAbs : run { bytes := [0x8C, 0x00, 0x02], y := 0x01 } [0x0200] =
    some ⟨[0x00, 0x00, 0x01, 0xFD, 0x24], 0x8003, 4, [0x01]⟩ := by decide +kernel

theorem test_V41_8_taxImp : run { bytes := [0xAA], x := 0x11 } [] =
    some ⟨[0x00, 0x00, 0x00, 0xFD, 0x26], 0x8001, 2, []⟩ := by decide +kernel

theorem test_V41_9_tayImp : run { bytes := [0xA8], a := 0x80 } [] =
    some ⟨[0x80, 0x00, 0x80, 0xFD, 0xA4], 0x8001, 2, []⟩ := by decide +kernel

theorem test_V41_10_txaImp : run { bytes := [0x8A], x := 0x7F } [] =
    some ⟨[0x7F, 0x7F, 0x00, 0xFD, 0x24], 0x8001, 2, []⟩ := by decide +kernel

theorem test_V41_11_tyaImp : run { bytes := [0x98], a := 0x09 } [] =
    some ⟨[0x00, 0x00, 0x00, 0xFD, 0x26], 0x8001, 2, []⟩ := by decide +kernel

theorem test_V41_12_tsxImp : run { bytes := [0xBA] } [] =
    some ⟨[0x00, 0xFD, 0x00, 0xFD, 0xA4], 0x8001, 2, []⟩ := by decide +kernel

theorem test_V41_13_txsImp : run { bytes := [0x9A] } [] =
    some ⟨[0x00, 0x00, 0x00, 0x00, 0x24], 0x8001, 2, []⟩ := by decide +kernel

theorem test_V42_2_adcImm : run { bytes := [0x69, 0x90], a := 0xD0 } [] =
    some ⟨[0x60, 0x00, 0x00, 0xFD, 0x65], 0x8002, 2, []⟩ := by decide +kernel

theorem test_V42_6_adcImm : run { bytes := [0x69, 0x09], a := 0x09, p := 0x2C } [] =
    some ⟨[0x12, 0x00, 0x00, 0xFD, 0x2C], 0x8002, 2, []⟩ := by decide +kernel

theorem test_V42_8_sbcImm : run { bytes := [0xE9, 0xB0], a := 0x50, p := 0x25 } [] =
    some ⟨[0xA0, 0x00, 0x00, 0xFD, 0xE4], 0x8002, 2, []⟩ := by decide +kernel

theorem test_V42_10_sbcImm : run { bytes := [0xE9, 0x01], a := 0x80, p := 0x25 } [] =
    some ⟨[0x7F, 0x00, 0x00, 0xFD, 0x65], 0x8002, 2, []⟩ := by decide +kernel

theorem test_V42_13_andImm : run { bytes := [0x29, 0x0F], a := 0xF0 } [] =
    some ⟨[0x00, 0x00, 0x00, 0xFD, 0x26], 0x8002, 2, []⟩ := by decide +kernel

theorem test_V42_14_oraImm : run { bytes := [0x09, 0x80], a := 0x01 } [] =
    some ⟨[0x81, 0x00, 0x00, 0xFD, 0xA4], 0x8002, 2, []⟩ := by decide +kernel

theorem test_V42_15_eorImm : run { bytes := [0x49, 0xFF], a := 0xFF } [] =
    some ⟨[0x00, 0x00, 0x00, 0xFD, 0x26], 0x8002, 2, []⟩ := by decide +kernel

theorem test_V42_17_cmpImm : run { bytes := [0xC9, 0x20], a := 0x10 } [] =
    some ⟨[0x10, 0x00, 0x00, 0xFD, 0xA4], 0x8002, 2, []⟩ := by decide +kernel

theorem test_V42_18_cmpImm : run { bytes := [0xC9, 0x10], a := 0x90 } [] =
    some ⟨[0x90, 0x00, 0x00, 0xFD, 0xA5], 0x8002, 2, []⟩ := by decide +kernel

theorem test_V42_19_cpxImm : run { bytes := [0xE0, 0x00], x := 0xFF } [] =
    some ⟨[0x00, 0xFF, 0x00, 0xFD, 0xA5], 0x8002, 2, []⟩ := by decide +kernel

theorem test_V42_20_cpyZp : run { bytes := [0xC4, 0x10], y := 0x01, mem := [(0x0010, 0x02)] } [] =
    some ⟨[0x00, 0x00, 0x01, 0xFD, 0xA4], 0x8002, 3, []⟩ := by decide +kernel

theorem test_V42_21_bitZp : run { bytes := [0x24, 0x10], a := 0x01, mem := [(0x0010, 0xC0)] } [] =
    some ⟨[0x01, 0x00, 0x00, 0xFD, 0xE6], 0x8002, 3, []⟩ := by decide +kernel

theorem test_V42_22_bitZp : run { bytes := [0x24, 0x10], a := 0xFF, p := 0xE4, mem := [(0x0010, 0x01)] } [] =
    some ⟨[0xFF, 0x00, 0x00, 0xFD, 0x24], 0x8002, 3, []⟩ := by decide +kernel

theorem test_V42_23_incZp : run { bytes := [0xE6, 0x10], mem := [(0x0010, 0xFF)] } [0x0010] =
    some ⟨[0x00, 0x00, 0x00, 0xFD, 0x26], 0x8002, 5, [0x00]⟩ := by decide +kernel

theorem test_V42_24_decZp : run { bytes := [0xC6, 0x10], mem := [(0x0010, 0x00)] } [0x0010] =
    some ⟨[0x00, 0x00, 0x00, 0xFD, 0xA4], 0x8002, 5, [0xFF]⟩ := by decide +kernel

theorem test_V42_25_incAbx : run { bytes := [0xFE, 0xFF, 0x02], x := 0x01, mem := [(0x0300, 0x7F)] } [0x0300] =
    some ⟨[0x00, 0x01, 0x00, 0xFD, 0xA4], 0x8003, 7, [0x80]⟩ := by decide +kernel

theorem test_V42_26_inxImp : run { bytes := [0xE8], x := 0xFF } [] =
    some ⟨[0x00, 0x00, 0x00, 0xFD, 0x26], 0x8001, 2, []⟩ := by decide +kernel

theorem test_V42_27_inyImp : run { bytes := [0xC8], y := 0x7F } [] =
    some ⟨[0x00, 0x00, 0x80, 0xFD, 0xA4], 0x8001, 2, []⟩ := by decide +kernel

theorem test_V42_28_dexImp : run { bytes := [0xCA] } [] =
    some ⟨[0x00, 0xFF, 0x00, 0xFD, 0xA4], 0x8001, 2, []⟩ := by decide +kernel

theorem test_V42_29_deyImp : run { bytes := [0x88], y := 0x01 } [] =
    some ⟨[0x00, 0x00, 0x00, 0xFD, 0x26], 0x8001, 2, []⟩ := by decide +kernel

theorem test_V43_1_aslAcc : run { bytes := [0x0A], a := 0x80 } [] =
    some ⟨[0x00, 0x00, 0x00, 0xFD, 0x27], 0x8001, 2, []⟩ := by decide +kernel

theorem test_V43_2_aslAcc : run { bytes := [0x0A], a := 0x41, p := 0x25 } [] =
    some ⟨[0x82, 0x00, 0x00, 0xFD, 0xA4], 0x8001, 2, []⟩ := by decide +kernel

theorem test_V43_3_aslZp : run { bytes := [0x06, 0x10], mem := [(0x0010, 0xC0)] } [0x0010] =
    some ⟨[0x00, 0x00, 0x00, 0xFD, 0xA5], 0x8002, 5, [0x80]⟩ := by decide +kernel

theorem test_V43_4_lsrAcc : run { bytes := [0x4A], a := 0x01 } [] =
    some ⟨[0x00, 0x00, 0x00, 0xFD, 0x27], 0x8001, 2, []⟩ := by decide +kernel

theorem test_V43_5_lsrZpx : run { bytes := [0x56, 0x10], x := 0x01, mem := [(0x0011, 0xFE)] } [0x0011] =
    some ⟨[0x00, 0x01, 0x00, 0xFD, 0x24], 0x8002, 6, [0x7F]⟩ := by decide +kernel

theorem test_V43_6_rolAcc : run { bytes := [0x2A], a := 0x80, p := 0x25 } [] =
    some ⟨[0x01, 0x00, 0x00, 0xFD, 0x25], 0x8001, 2, []⟩ := by decide +kernel

theorem test_V43_7_rolAbs : run { bytes := [0x2E, 0x00, 0x02], mem := [(0x0200, 0x40)] } [0x0200] =
    some ⟨[0x00, 0x00, 0x00, 0xFD, 0xA4], 0x8003, 6, [0x80]⟩ := by decide +kernel

theorem test_V43_8_rorAcc : run { bytes := [0x6A], a := 0x01 } [] =
    some ⟨[0x00, 0x00, 0x00, 0xFD, 0x27], 0x8001, 2, []⟩ := by decide +kernel

theorem test_V43_9_rorAcc : run { bytes := [0x6A], p := 0x25 } [] =
    some ⟨[0x80, 0x00, 0x00, 0xFD, 0xA4], 0x8001, 2, []⟩ := by decide +kernel

theorem test_V43_10_rorZp : run { bytes := [0x66, 0x10], p := 0x25, mem := [(0x0010, 0x03)] } [0x0010] =
    some ⟨[0x00, 0x00, 0x00, 0xFD, 0xA5], 0x8002, 5, [0x81]⟩ := by decide +kernel

theorem test_V44_1_jmpAbs : run { bytes := [0x4C, 0x00, 0x90] } [] =
    some ⟨[0x00, 0x00, 0x00, 0xFD, 0x24], 0x9000, 3, []⟩ := by decide +kernel

theorem test_V44_2_jsrAbs : run { bytes := [0x20, 0x10, 0x80] } [0x01FC, 0x01FD] =
    some ⟨[0x00, 0x00, 0x00, 0xFB, 0x24], 0x8010, 6, [0x02, 0x80]⟩ := by decide +kernel

theorem test_V44_3_jsrAbs : run { bytes := [0x20, 0x34, 0x12], pc := 0x80FE, s := 0x00 } [0x0100, 0x01FF] =
    some ⟨[0x00, 0x00, 0x00, 0xFE, 0x24], 0x1234, 6, [0x81, 0x00]⟩ := by decide +kernel

theorem test_V44_4_rtsImp : run { bytes := [0x60], pc := 0x8010, s := 0xFB, mem := [(0x01FC, 0x02), (0x01FD, 0x80)] } [] =
    some ⟨[0x00, 0x00, 0x00, 0xFD, 0x24], 0x8003, 6, []⟩ := by decide +kernel

theorem test_V44_5_rtsImp : run { bytes := [0x60], s := 0xFE, mem := [(0x0100, 0xFF), (0x01FF, 0xFF)] } [] =
    some ⟨[0x00, 0x00, 0x00, 0x00, 0x24], 0x0000, 6, []⟩ := by decide +kernel

theorem test_V44_6_bccRel : run { bytes := [0x90, 0x02] } [] =
    some ⟨[0x00, 0x00, 0x00, 0xFD, 0x24], 0x8004, 3, []⟩ := by decide +kernel

theorem test_V44_7_bccRel : run { bytes := [0x90, 0x02], p := 0x25 } [] =
    some ⟨[0x00, 0x00, 0x00, 0xFD, 0x25], 0x8002, 2, []⟩ := by decide +kernel

theorem test_V44_8_bcsRel : run { bytes := [0xB0, 0x02], p := 0x25 } [] =
    some ⟨[0x00, 0x00, 0x00, 0xFD, 0x25], 0x8004, 3, []⟩ := by decide +kernel

theorem test_V44_9_beqRel : run { bytes := [0xF0, 0x02], pc := 0x80FD, p := 0x26 } [] =
    some ⟨[0x00, 0x00, 0x00, 0xFD, 0x26], 0x8101, 4, []⟩ := by decide +kernel

theorem test_V44_10_bneRel : run { bytes := [0xD0, 0xFB], pc := 0x8005 } [] =
    some ⟨[0x00, 0x00, 0x00, 0xFD, 0x24], 0x8002, 3, []⟩ := by decide +kernel

theorem test_V44_11_bneRel : run { bytes := [0xD0, 0xFD] } [] =
    some ⟨[0x00, 0x00, 0x00, 0xFD, 0x24], 0x7FFF, 4, []⟩ := by decide +kernel

theorem test_V44_12_bmiRel : run { bytes := [0x30, 0x7F], p := 0xA4 } [] =
    some ⟨[0x00, 0x00, 0x00, 0xFD, 0xA4], 0x8081, 3, []⟩ := by decide +kernel

theorem test_V44_13_bplRel : run { bytes := [0x10, 0x80] } [] =
    some ⟨[0x00, 0x00, 0x00, 0xFD, 0x24], 0x7F82, 4, []⟩ := by decide +kernel

theorem test_V44_14_bvcRel : run { bytes := [0x50, 0x10], p := 0x64 } [] =
    some ⟨[0x00, 0x00, 0x00, 0xFD, 0x64], 0x8002, 2, []⟩ := by decide +kernel

theorem test_V44_15_bvsRel : run { bytes := [0x70, 0xFE], p := 0x64 } [] =
    some ⟨[0x00, 0x00, 0x00, 0xFD, 0x64], 0x8000, 3, []⟩ := by decide +kernel

theorem test_V44_16_beqRel : run { bytes := [0xF0, 0x05], pc := 0xFFFC, p := 0x26 } [] =
    some ⟨[0x00, 0x00, 0x00, 0xFD, 0x26], 0x0003, 4, []⟩ := by decide +kernel

theorem test_V44_17_brkImp : run { bytes := [0x00, 0xEA], mem := [(0xFFFE, 0x00), (0xFFFF, 0x90)] } [0x01FB, 0x01FC, 0x01FD] =
    some ⟨[0x00, 0x00, 0x00, 0xFA, 0x24], 0x9000, 7, [0x34, 0x02, 0x80]⟩ := by decide +kernel

theorem test_V44_18_brkImp : run { bytes := [0x00, 0xEA], p := 0xE7, mem := [(0xFFFE, 0x34), (0xFFFF, 0x12)] } [0x01FB, 0x01FC, 0x01FD] =
    some ⟨[0x00, 0x00, 0x00, 0xFA, 0xE7], 0x1234, 7, [0xF7, 0x02, 0x80]⟩ := by decide +kernel

theorem test_V44_19_rtiImp : run { bytes := [0x40], pc := 0x9000, s := 0xFA, mem := [(0x01FB, 0xFF), (0x01FC, 0x02), (0x01FD, 0x80)] } [] =
    some ⟨[0x00, 0x00, 0x00, 0xFD, 0xEF], 0x8002, 6, []⟩ := by decide +kernel

theorem test_V44_20_rtiImp : run { bytes := [0x40], pc := 0x9000, s := 0xFA, mem := [(0x01FB, 0x00), (0x01FC, 0x02), (0x01FD, 0x80)] } [] =
    some ⟨[0x00, 0x00, 0x00, 0xFD, 0x20], 0x8002, 6, []⟩ := by decide +kernel

theorem test_V45_2_phaImp : run { bytes := [0x48], a := 0x42, s := 0x00 } [0x0100] =
    some ⟨[0x42, 0x00, 0x00, 0xFF, 0x24], 0x8001, 3, [0x42]⟩ := by decide +kernel

theorem test_V45_3_phpImp : run { bytes := [0x08] } [0x01FD] =
    some ⟨[0x00, 0x00, 0x00, 0xFC, 0x24], 0x8001, 3, [0x34]⟩ := by decide +kernel

theorem test_V45_4_phpImp : run { bytes := [0x08], p := 0xEF } [0x01FD] =
    some ⟨[0x00, 0x00, 0x00, 0xFC, 0xEF], 0x8001, 3, [0xFF]⟩ := by decide +kernel

theorem test_V45_5_plaImp : run { bytes := [0x68], a := 0x11, s := 0xFC, mem := [(0x01FD, 0x00)] } [] =
    some ⟨[0x00, 0x00, 0x00, 0xFD, 0x26], 0x8001, 4, []⟩ := by decide +kernel

theorem test_V45_6_plaImp : run { bytes := [0x68], a := 0x11, s := 0xFF, mem := [(0x0100, 0x80)] } [] =
    some ⟨[0x80, 0x00, 0x00, 0x00, 0xA4], 0x8001, 4, []⟩ := by decide +kernel

theorem test_V45_7_plpImp : run { bytes := [0x28], s := 0xFC, mem := [(0x01FD, 0xFF)] } [] =
    some ⟨[0x00, 0x00, 0x00, 0xFD, 0xEF], 0x8001, 4, []⟩ := by decide +kernel

theorem test_V45_8_plpImp : run { bytes := [0x28], s := 0xFC, p := 0xEF, mem := [(0x01FD, 0x10)] } [] =
    some ⟨[0x00, 0x00, 0x00, 0xFD, 0x20], 0x8001, 4, []⟩ := by decide +kernel

theorem test_V45_9_clcImp : run { bytes := [0x18], p := 0x25 } [] =
    some ⟨[0x00, 0x00, 0x00, 0xFD, 0x24], 0x8001, 2, []⟩ := by decide +kernel

theorem test_V45_10_secImp : run { bytes := [0x38] } [] =
    some ⟨[0x00, 0x00, 0x00, 0xFD, 0x25], 0x8001, 2, []⟩ := by decide +kernel

theorem test_V45_11_cliImp : run { bytes := [0x58] } [] =
    some ⟨[0x00, 0x00, 0x00, 0xFD, 0x20], 0x8001, 2, []⟩ := by decide +kernel

theorem test_V45_12_seiImp : run { bytes := [0x78], p := 0x20 } [] =
    some ⟨[0x00, 0x00, 0x00, 0xFD, 0x24], 0x8001, 2, []⟩ := by decide +kernel

theorem test_V45_13_cldImp : run { bytes := [0xD8], p := 0x2C } [] =
    some ⟨[0x00, 0x00, 0x00, 0xFD, 0x24], 0x8001, 2, []⟩ := by decide +kernel

theorem test_V45_14_sedImp : run { bytes := [0xF8] } [] =
    some ⟨[0x00, 0x00, 0x00, 0xFD, 0x2C], 0x8001, 2, []⟩ := by decide +kernel

theorem test_V45_15_clvImp : run { bytes := [0xB8], p := 0x64 } [] =
    some ⟨[0x00, 0x00, 0x00, 0xFD, 0x24], 0x8001, 2, []⟩ := by decide +kernel

theorem test_V45_16_nopImp : run { bytes := [0xEA], p := 0xE7 } [] =
    some ⟨[0x00, 0x00, 0x00, 0xFD, 0xE7], 0x8001, 2, []⟩ := by decide +kernel

theorem test_V46_1_nopImp : run { bytes := [0x1A] } [] =
    some ⟨[0x00, 0x00, 0x00, 0xFD, 0x24], 0x8001, 2, []⟩ := by decide +kernel

theorem test_V46_2_nopImm : run { bytes := [0x80, 0xFF] } [] =
    some ⟨[0x00, 0x00, 0x00, 0xFD, 0x24], 0x8002, 2, []⟩ := by decide +kernel

theorem test_V46_3_nopZp : run { bytes := [0x04, 0x10], mem := [(0x0010, 0x80)] } [] =
    some ⟨[0x00, 0x00, 0x00, 0xFD, 0x24], 0x8002, 3, []⟩ := by decide +kernel

theorem test_V46_4_nopZpx : run { bytes := [0x14, 0x10], x := 0x01, mem := [(0x0011, 0x00)] } [] =
    some ⟨[0x00, 0x01, 0x00, 0xFD, 0x24], 0x8002, 4, []⟩ := by decide +kernel

theorem test_V46_5_nopAbs : run { bytes := [0x0C, 0x00, 0x02], mem := [(0x0200, 0x00)] } [] =
    some ⟨[0x00, 0x00, 0x00, 0xFD, 0x24], 0x8003, 4, []⟩ := by decide +kernel

theorem test_V46_6_nopAbx : run { bytes := [0x1C, 0xFF, 0x02], x := 0x01, mem := [(0x0300, 0x00)] } [] =
    some ⟨[0x00, 0x01, 0x00, 0xFD, 0x24], 0x8003, 5, []⟩ := by decide +kernel

theorem test_V46_7_nopAbx : run { bytes := [0x1C, 0x00, 0x02], x := 0x01, mem := [(0x0201, 0x00)] } [] =
    some ⟨[0x00, 0x01, 0x00, 0xFD, 0x24], 0x8003, 4, []⟩ := by decide +kernel

theorem test_V46_8_laxZp : run { bytes := [0xA7, 0x10], mem := [(0x0010, 0x8F)] } [] =
    some ⟨[0x8F, 0x8F, 0x00, 0xFD, 0xA4], 0x8002, 3, []⟩ := by decide +kernel

theorem test_V46_9_laxIzy : run { bytes := [0xB3, 0x10], y := 0x01, mem := [(0x0010, 0xFF), (0x0011, 0x02), (0x0300, 0x00)] } [] =
    some ⟨[0x00, 0x00, 0x01, 0xFD, 0x26], 0x8002, 6, []⟩ := by decide +kernel

theorem test_V46_10_saxZp : run { bytes := [0x87, 0x10], a := 0xF0, x := 0x3C } [0x0010] =
    some ⟨[0xF0, 0x3C, 0x00, 0xFD, 0x24], 0x8002, 3, [0x30]⟩ := by decide +kernel

theorem test_V46_11_saxZpy : run { bytes := [0x97, 0x10], a := 0xFF, y := 0x02 } [0x0012] =
    some ⟨[0xFF, 0x00, 0x02, 0xFD, 0x24], 0x8002, 4, [0x00]⟩ := by decide +kernel

theorem test_V46_12_sloZp : run { bytes := [0x07, 0x10], a := 0x01, mem := [(0x0010, 0x81)] } [0x0010] =
    some ⟨[0x03, 0x00, 0x00, 0xFD, 0x25], 0x8002, 5, [0x02]⟩ := by decide +kernel

theorem test_V46_13_rlaZp : run { bytes := [0x27, 0x10], a := 0xFF, p := 0x25, mem := [(0x0010, 0x40)] } [0x0010] =
    some ⟨[0x81, 0x00, 0x00, 0xFD, 0xA4], 0x8002, 5, [0x81]⟩ := by decide +kernel

theorem test_V46_14_sreZp : run { bytes := [0x47, 0x10], a := 0x01, mem := [(0x0010, 0x03)] } [0x0010] =
    some ⟨[0x00, 0x00, 0x00, 0xFD, 0x27], 0x8002, 5, [0x01]⟩ := by decide +kernel

theorem test_V46_15_rraZp : run { bytes := [0x67, 0x10], a := 0x10, mem := [(0x0010, 0x03)] } [0x0010] =
    some ⟨[0x12, 0x00, 0x00, 0xFD, 0x24], 0x8002, 5, [0x01]⟩ := by decide +kernel

theorem test_V46_16_rraZp : run { bytes := [0x67, 0x10], a := 0x7F, p := 0x25, mem := [(0x0010, 0x00)] } [0x0010] =
    some ⟨[0xFF, 0x00, 0x00, 0xFD, 0xA4], 0x8002, 5, [0x80]⟩ := by decide +kernel

theorem test_V46_17_dcpZp : run { bytes := [0xC7, 0x10], a := 0x10, mem := [(0x0010, 0x11)] } [0x0010] =
    some ⟨[0x10, 0x00, 0x00, 0xFD, 0x27], 0x8002, 5, [0x10]⟩ := by decide +kernel

theorem test_V46_18_dcpZp : run { bytes := [0xC7, 0x10], a := 0x10, mem := [(0x0010, 0x00)] } [0x0010] =
    some ⟨[0x10, 0x00, 0x00, 0xFD, 0x24], 0x8002, 5, [0xFF]⟩ := by decide +kernel

theorem test_V46_19_iscZp : run { bytes := [0xE7, 0x10], a := 0x20, p := 0x25, mem := [(0x0010, 0x0F)] } [0x0010] =
    some ⟨[0x10, 0x00, 0x00, 0xFD, 0x25], 0x8002, 5, [0x10]⟩ := by decide +kernel

theorem test_V46_20_iscZp : run { bytes := [0xE7, 0x10], p := 0x25, mem := [(0x0010, 0xFF)] } [0x0010] =
    some ⟨[0x00, 0x00, 0x00, 0xFD, 0x27], 0x8002, 5, [0x00]⟩ := by decide +kernel

theorem test_V46_21_sloIzx : run { bytes := [0x03, 0x10], mem := [(0x0010, 0x00), (0x0011, 0x03), (0x0300, 0x40)] } [0x0300] =
    some ⟨[0x80, 0x00, 0x00, 0xFD, 0xA4], 0x8002, 8, [0x80]⟩ := by decide +kernel

theorem test_V46_22_ancImm : run { bytes := [0x0B, 0x80], a := 0xFF } [] =
    some ⟨[0x80, 0x00, 0x00, 0xFD, 0xA5], 0x8002, 2, []⟩ := by decide +kernel

theorem test_V46_23_ancImm : run { bytes := [0x2B, 0x7F], a := 0xFF, p := 0x25 } [] =
    some ⟨[0x7F, 0x00, 0x00, 0xFD, 0x24], 0x8002, 2, []⟩ := by decide +kernel

theorem test_V46_24_alrImm : run { bytes := [0x4B, 0x03], a := 0xFF } [] =
    some ⟨[0x01, 0x00, 0x00, 0xFD, 0x25], 0x8002, 2, []⟩ := by decide +kernel

theorem test_V46_26_arrImm : run { bytes := [0x6B, 0xC0], a := 0xC0 } [] =
    some ⟨[0x60, 0x00, 0x00, 0xFD, 0x25], 0x8002, 2, []⟩ := by decide +kernel

theorem test_V46_27_arrImm : run { bytes := [0x6B, 0x80], a := 0x80 } [] =
    some ⟨[0x40, 0x00, 0x00, 0xFD, 0x65], 0x8002, 2, []⟩ := by decide +kernel

theorem test_V46_28_axsImm : run { bytes := [0xCB, 0x10], a := 0xF0, x := 0x3C } [] =
    some ⟨[0xF0, 0x20, 0x00, 0xFD, 0x25], 0x8002, 2, []⟩ := by decide +kernel

theorem test_V46_29_axsImm : run { bytes := [0xCB, 0x01], a := 0xFF, p := 0x25 } [] =
    some ⟨[0xFF, 0xFF, 0x00, 0xFD, 0xA4], 0x8002, 2, []⟩ := by decide +kernel

theorem test_V46_30_sbcImm : run { bytes := [0xEB, 0x03], a := 0x05, p := 0x25 } [] =
    some ⟨[0x02, 0x00, 0x00, 0xFD, 0x25], 0x8002, 2, []⟩ := by decide +kernel

theorem test_V46_31_jamImp : run { bytes := [0x02], a := 0x01 } [] =
    some ⟨[0x01, 0x00, 0x00, 0xFD, 0x24], 0x8001, 2, []⟩ := by decide +kernel

theorem test_V46_32_aneImm : run { bytes := [0x8B, 0x55], a := 0xAA, x := 0xFF } [] =
    some ⟨[0xAA, 0xFF, 0x00, 0xFD, 0x24], 0x8002, 2, []⟩ := by decide +kernel

theorem test_V46_33_lxaImm : run { bytes := [0xAB, 0x55], a := 0xAA, x := 0xFF } [] =
    some ⟨[0xAA, 0xFF, 0x00, 0xFD, 0x24], 0x8002, 2, []⟩ := by decide +kernel

theorem test_V46_34_shaAby : run { bytes := [0x9F, 0x00, 0x02], a := 0xFF, x := 0xFF, y := 0x01 } [] =
    some ⟨[0xFF, 0xFF, 0x01, 0xFD, 0x24], 0x8003, 5, []⟩ := by decide +kernel

theorem test_V46_35_shaIzy : run { bytes := [0x93, 0x10], a := 0xFF, x := 0xFF, y := 0x01, mem := [(0x0010, 0x00), (0x0011, 0x02)] } [] =
    some ⟨[0xFF, 0xFF, 0x01, 0xFD, 0x24], 0x8002, 6, []⟩ := by decide +kernel

theorem test_V46_36_shxAby : run { bytes := [0x9E, 0x00, 0x02], x := 0xFF, y := 0x01 } [] =
    some ⟨[0x00, 0xFF, 0x01, 0xFD, 0x24], 0x8003, 5, []⟩ := by decide +kernel

theorem test_V46_37_shyAbx : run { bytes := [0x9C, 0x00, 0x02], x := 0x01, y := 0xFF } [] =
    some ⟨[0x00, 0x01, 0xFF, 0xFD, 0x24], 0x8003, 5, []⟩ := by decide +kernel

theorem test_V46_38_tasAby : run { bytes := [0x9B, 0x00, 0x02], a := 0xFF, x := 0x0F } [] =
    some ⟨[0xFF, 0x0F, 0x00, 0xFD, 0x24], 0x8003, 5, []⟩ := by decide +kernel

theorem test_V46_39_lasAby : run { bytes := [0xBB, 0xFF, 0x02], a := 0x01, x := 0x02, y := 0x01, mem := [(0x0300, 0xF0)] } [] =
    some ⟨[0x01, 0x02, 0x01, 0xFD, 0x24], 0x8003, 5, []⟩ := by decide +kernel

/-! Decoding: every opcode with operand bytes 0x35 0x12 after it, as spec/opcode_table.json and the matrix of R144 give it.
What an instruction does not take is left over. -/

/-- Opcodes 0x00 to 0x0F. -/
theorem test_decode_row0 : [0x00, 0x01, 0x02, 0x03, 0x04, 0x05, 0x06, 0x07, 0x08, 0x09, 0x0A, 0x0B, 0x0C, 0x0D, 0x0E, 0x0F].map
    (fun op => decode [op, 0x35, 0x12]) = [
      .ok (.brk, [0x35, 0x12]), .ok (.oraIzx 0x35, [0x12]), .ok (.jam02, [0x35, 0x12]), .ok (.sloIzx 0x35, [0x12]),
      .ok (.nopZp04 0x35, [0x12]), .ok (.oraZp 0x35, [0x12]), .ok (.aslZp 0x35, [0x12]), .ok (.sloZp 0x35, [0x12]),
      .ok (.php, [0x35, 0x12]), .ok (.oraImm 0x35, [0x12]), .ok (.aslAcc, [0x35, 0x12]), .ok (.anc0B 0x35, [0x12]),
      .ok (.nopAbs0C 0x1235, []), .ok (.oraAbs 0x1235, []), .ok (.aslAbs 0x1235, []), .ok (.sloAbs 0x1235, [])] := by decide

/-- Opcodes 0x10 to 0x1F. -/
theorem test_decode_row1 : [0x10, 0x11, 0x12, 0x13, 0x14, 0x15, 0x16, 0x17, 0x18, 0x19, 0x1A, 0x1B, 0x1C, 0x1D, 0x1E, 0x1F].map
    (fun op => decode [op, 0x35, 0x12]) = [
      .ok (.bpl 0x35, [0x12]), .ok (.oraIzy 0x35, [0x12]), .ok (.jam12, [0x35, 0x12]), .ok (.sloIzy 0x35, [0x12]),
      .ok (.nopZpx14 0x35, [0x12]), .ok (.oraZpx 0x35, [0x12]), .ok (.aslZpx 0x35, [0x12]), .ok (.sloZpx 0x35, [0x12]),
      .ok (.clc, [0x35, 0x12]), .ok (.oraAby 0x1235, []), .ok (.nopImp1A, [0x35, 0x12]), .ok (.sloAby 0x1235, []),
      .ok (.nopAbx1C 0x1235, []), .ok (.oraAbx 0x1235, []), .ok (.aslAbx 0x1235, []), .ok (.sloAbx 0x1235, [])] := by decide

/-- Opcodes 0x20 to 0x2F. -/
theorem test_decode_row2 : [0x20, 0x21, 0x22, 0x23, 0x24, 0x25, 0x26, 0x27, 0x28, 0x29, 0x2A, 0x2B, 0x2C, 0x2D, 0x2E, 0x2F].map
    (fun op => decode [op, 0x35, 0x12]) = [
      .ok (.jsr 0x1235, []), .ok (.andIzx 0x35, [0x12]), .ok (.jam22, [0x35, 0x12]), .ok (.rlaIzx 0x35, [0x12]),
      .ok (.bitZp 0x35, [0x12]), .ok (.andZp 0x35, [0x12]), .ok (.rolZp 0x35, [0x12]), .ok (.rlaZp 0x35, [0x12]),
      .ok (.plp, [0x35, 0x12]), .ok (.andImm 0x35, [0x12]), .ok (.rolAcc, [0x35, 0x12]), .ok (.anc2B 0x35, [0x12]),
      .ok (.bitAbs 0x1235, []), .ok (.andAbs 0x1235, []), .ok (.rolAbs 0x1235, []), .ok (.rlaAbs 0x1235, [])] := by decide

/-- Opcodes 0x30 to 0x3F. -/
theorem test_decode_row3 : [0x30, 0x31, 0x32, 0x33, 0x34, 0x35, 0x36, 0x37, 0x38, 0x39, 0x3A, 0x3B, 0x3C, 0x3D, 0x3E, 0x3F].map
    (fun op => decode [op, 0x35, 0x12]) = [
      .ok (.bmi 0x35, [0x12]), .ok (.andIzy 0x35, [0x12]), .ok (.jam32, [0x35, 0x12]), .ok (.rlaIzy 0x35, [0x12]),
      .ok (.nopZpx34 0x35, [0x12]), .ok (.andZpx 0x35, [0x12]), .ok (.rolZpx 0x35, [0x12]), .ok (.rlaZpx 0x35, [0x12]),
      .ok (.sec, [0x35, 0x12]), .ok (.andAby 0x1235, []), .ok (.nopImp3A, [0x35, 0x12]), .ok (.rlaAby 0x1235, []),
      .ok (.nopAbx3C 0x1235, []), .ok (.andAbx 0x1235, []), .ok (.rolAbx 0x1235, []), .ok (.rlaAbx 0x1235, [])] := by decide

/-- Opcodes 0x40 to 0x4F. -/
theorem test_decode_row4 : [0x40, 0x41, 0x42, 0x43, 0x44, 0x45, 0x46, 0x47, 0x48, 0x49, 0x4A, 0x4B, 0x4C, 0x4D, 0x4E, 0x4F].map
    (fun op => decode [op, 0x35, 0x12]) = [
      .ok (.rti, [0x35, 0x12]), .ok (.eorIzx 0x35, [0x12]), .ok (.jam42, [0x35, 0x12]), .ok (.sreIzx 0x35, [0x12]),
      .ok (.nopZp44 0x35, [0x12]), .ok (.eorZp 0x35, [0x12]), .ok (.lsrZp 0x35, [0x12]), .ok (.sreZp 0x35, [0x12]),
      .ok (.pha, [0x35, 0x12]), .ok (.eorImm 0x35, [0x12]), .ok (.lsrAcc, [0x35, 0x12]), .ok (.alr 0x35, [0x12]),
      .ok (.jmpAbs 0x1235, []), .ok (.eorAbs 0x1235, []), .ok (.lsrAbs 0x1235, []), .ok (.sreAbs 0x1235, [])] := by decide

/-- Opcodes 0x50 to 0x5F. -/
theorem test_decode_row5 : [0x50, 0x51, 0x52, 0x53, 0x54, 0x55, 0x56, 0x57, 0x58, 0x59, 0x5A, 0x5B, 0x5C, 0x5D, 0x5E, 0x5F].map
    (fun op => decode [op, 0x35, 0x12]) = [
      .ok (.bvc 0x35, [0x12]), .ok (.eorIzy 0x35, [0x12]), .ok (.jam52, [0x35, 0x12]), .ok (.sreIzy 0x35, [0x12]),
      .ok (.nopZpx54 0x35, [0x12]), .ok (.eorZpx 0x35, [0x12]), .ok (.lsrZpx 0x35, [0x12]), .ok (.sreZpx 0x35, [0x12]),
      .ok (.cli, [0x35, 0x12]), .ok (.eorAby 0x1235, []), .ok (.nopImp5A, [0x35, 0x12]), .ok (.sreAby 0x1235, []),
      .ok (.nopAbx5C 0x1235, []), .ok (.eorAbx 0x1235, []), .ok (.lsrAbx 0x1235, []), .ok (.sreAbx 0x1235, [])] := by decide

/-- Opcodes 0x60 to 0x6F. -/
theorem test_decode_row6 : [0x60, 0x61, 0x62, 0x63, 0x64, 0x65, 0x66, 0x67, 0x68, 0x69, 0x6A, 0x6B, 0x6C, 0x6D, 0x6E, 0x6F].map
    (fun op => decode [op, 0x35, 0x12]) = [
      .ok (.rts, [0x35, 0x12]), .ok (.adcIzx 0x35, [0x12]), .ok (.jam62, [0x35, 0x12]), .ok (.rraIzx 0x35, [0x12]),
      .ok (.nopZp64 0x35, [0x12]), .ok (.adcZp 0x35, [0x12]), .ok (.rorZp 0x35, [0x12]), .ok (.rraZp 0x35, [0x12]),
      .ok (.pla, [0x35, 0x12]), .ok (.adcImm 0x35, [0x12]), .ok (.rorAcc, [0x35, 0x12]), .ok (.arr 0x35, [0x12]),
      .ok (.jmpInd 0x1235, []), .ok (.adcAbs 0x1235, []), .ok (.rorAbs 0x1235, []), .ok (.rraAbs 0x1235, [])] := by decide

/-- Opcodes 0x70 to 0x7F. -/
theorem test_decode_row7 : [0x70, 0x71, 0x72, 0x73, 0x74, 0x75, 0x76, 0x77, 0x78, 0x79, 0x7A, 0x7B, 0x7C, 0x7D, 0x7E, 0x7F].map
    (fun op => decode [op, 0x35, 0x12]) = [
      .ok (.bvs 0x35, [0x12]), .ok (.adcIzy 0x35, [0x12]), .ok (.jam72, [0x35, 0x12]), .ok (.rraIzy 0x35, [0x12]),
      .ok (.nopZpx74 0x35, [0x12]), .ok (.adcZpx 0x35, [0x12]), .ok (.rorZpx 0x35, [0x12]), .ok (.rraZpx 0x35, [0x12]),
      .ok (.sei, [0x35, 0x12]), .ok (.adcAby 0x1235, []), .ok (.nopImp7A, [0x35, 0x12]), .ok (.rraAby 0x1235, []),
      .ok (.nopAbx7C 0x1235, []), .ok (.adcAbx 0x1235, []), .ok (.rorAbx 0x1235, []), .ok (.rraAbx 0x1235, [])] := by decide

/-- Opcodes 0x80 to 0x8F. -/
theorem test_decode_row8 : [0x80, 0x81, 0x82, 0x83, 0x84, 0x85, 0x86, 0x87, 0x88, 0x89, 0x8A, 0x8B, 0x8C, 0x8D, 0x8E, 0x8F].map
    (fun op => decode [op, 0x35, 0x12]) = [
      .ok (.nopImm80 0x35, [0x12]), .ok (.staIzx 0x35, [0x12]), .ok (.nopImm82 0x35, [0x12]), .ok (.saxIzx 0x35, [0x12]),
      .ok (.styZp 0x35, [0x12]), .ok (.staZp 0x35, [0x12]), .ok (.stxZp 0x35, [0x12]), .ok (.saxZp 0x35, [0x12]),
      .ok (.dey, [0x35, 0x12]), .ok (.nopImm89 0x35, [0x12]), .ok (.txa, [0x35, 0x12]), .ok (.ane 0x35, [0x12]),
      .ok (.styAbs 0x1235, []), .ok (.staAbs 0x1235, []), .ok (.stxAbs 0x1235, []), .ok (.saxAbs 0x1235, [])] := by decide

/-- Opcodes 0x90 to 0x9F. -/
theorem test_decode_row9 : [0x90, 0x91, 0x92, 0x93, 0x94, 0x95, 0x96, 0x97, 0x98, 0x99, 0x9A, 0x9B, 0x9C, 0x9D, 0x9E, 0x9F].map
    (fun op => decode [op, 0x35, 0x12]) = [
      .ok (.bcc 0x35, [0x12]), .ok (.staIzy 0x35, [0x12]), .ok (.jam92, [0x35, 0x12]), .ok (.shaIzy 0x35, [0x12]),
      .ok (.styZpx 0x35, [0x12]), .ok (.staZpx 0x35, [0x12]), .ok (.stxZpy 0x35, [0x12]), .ok (.saxZpy 0x35, [0x12]),
      .ok (.tya, [0x35, 0x12]), .ok (.staAby 0x1235, []), .ok (.txs, [0x35, 0x12]), .ok (.tas 0x1235, []),
      .ok (.shy 0x1235, []), .ok (.staAbx 0x1235, []), .ok (.shx 0x1235, []), .ok (.shaAby 0x1235, [])] := by decide

/-- Opcodes 0xA0 to 0xAF. -/
theorem test_decode_rowA : [0xA0, 0xA1, 0xA2, 0xA3, 0xA4, 0xA5, 0xA6, 0xA7, 0xA8, 0xA9, 0xAA, 0xAB, 0xAC, 0xAD, 0xAE, 0xAF].map
    (fun op => decode [op, 0x35, 0x12]) = [
      .ok (.ldyImm 0x35, [0x12]), .ok (.ldaIzx 0x35, [0x12]), .ok (.ldxImm 0x35, [0x12]), .ok (.laxIzx 0x35, [0x12]),
      .ok (.ldyZp 0x35, [0x12]), .ok (.ldaZp 0x35, [0x12]), .ok (.ldxZp 0x35, [0x12]), .ok (.laxZp 0x35, [0x12]),
      .ok (.tay, [0x35, 0x12]), .ok (.ldaImm 0x35, [0x12]), .ok (.tax, [0x35, 0x12]), .ok (.lxa 0x35, [0x12]),
      .ok (.ldyAbs 0x1235, []), .ok (.ldaAbs 0x1235, []), .ok (.ldxAbs 0x1235, []), .ok (.laxAbs 0x1235, [])] := by decide

/-- Opcodes 0xB0 to 0xBF. -/
theorem test_decode_rowB : [0xB0, 0xB1, 0xB2, 0xB3, 0xB4, 0xB5, 0xB6, 0xB7, 0xB8, 0xB9, 0xBA, 0xBB, 0xBC, 0xBD, 0xBE, 0xBF].map
    (fun op => decode [op, 0x35, 0x12]) = [
      .ok (.bcs 0x35, [0x12]), .ok (.ldaIzy 0x35, [0x12]), .ok (.jamB2, [0x35, 0x12]), .ok (.laxIzy 0x35, [0x12]),
      .ok (.ldyZpx 0x35, [0x12]), .ok (.ldaZpx 0x35, [0x12]), .ok (.ldxZpy 0x35, [0x12]), .ok (.laxZpy 0x35, [0x12]),
      .ok (.clv, [0x35, 0x12]), .ok (.ldaAby 0x1235, []), .ok (.tsx, [0x35, 0x12]), .ok (.las 0x1235, []),
      .ok (.ldyAbx 0x1235, []), .ok (.ldaAbx 0x1235, []), .ok (.ldxAby 0x1235, []), .ok (.laxAby 0x1235, [])] := by decide

/-- Opcodes 0xC0 to 0xCF. -/
theorem test_decode_rowC : [0xC0, 0xC1, 0xC2, 0xC3, 0xC4, 0xC5, 0xC6, 0xC7, 0xC8, 0xC9, 0xCA, 0xCB, 0xCC, 0xCD, 0xCE, 0xCF].map
    (fun op => decode [op, 0x35, 0x12]) = [
      .ok (.cpyImm 0x35, [0x12]), .ok (.cmpIzx 0x35, [0x12]), .ok (.nopImmC2 0x35, [0x12]), .ok (.dcpIzx 0x35, [0x12]),
      .ok (.cpyZp 0x35, [0x12]), .ok (.cmpZp 0x35, [0x12]), .ok (.decZp 0x35, [0x12]), .ok (.dcpZp 0x35, [0x12]),
      .ok (.iny, [0x35, 0x12]), .ok (.cmpImm 0x35, [0x12]), .ok (.dex, [0x35, 0x12]), .ok (.axs 0x35, [0x12]),
      .ok (.cpyAbs 0x1235, []), .ok (.cmpAbs 0x1235, []), .ok (.decAbs 0x1235, []), .ok (.dcpAbs 0x1235, [])] := by decide

/-- Opcodes 0xD0 to 0xDF. -/
theorem test_decode_rowD : [0xD0, 0xD1, 0xD2, 0xD3, 0xD4, 0xD5, 0xD6, 0xD7, 0xD8, 0xD9, 0xDA, 0xDB, 0xDC, 0xDD, 0xDE, 0xDF].map
    (fun op => decode [op, 0x35, 0x12]) = [
      .ok (.bne 0x35, [0x12]), .ok (.cmpIzy 0x35, [0x12]), .ok (.jamD2, [0x35, 0x12]), .ok (.dcpIzy 0x35, [0x12]),
      .ok (.nopZpxD4 0x35, [0x12]), .ok (.cmpZpx 0x35, [0x12]), .ok (.decZpx 0x35, [0x12]), .ok (.dcpZpx 0x35, [0x12]),
      .ok (.cld, [0x35, 0x12]), .ok (.cmpAby 0x1235, []), .ok (.nopImpDA, [0x35, 0x12]), .ok (.dcpAby 0x1235, []),
      .ok (.nopAbxDC 0x1235, []), .ok (.cmpAbx 0x1235, []), .ok (.decAbx 0x1235, []), .ok (.dcpAbx 0x1235, [])] := by decide

/-- Opcodes 0xE0 to 0xEF. -/
theorem test_decode_rowE : [0xE0, 0xE1, 0xE2, 0xE3, 0xE4, 0xE5, 0xE6, 0xE7, 0xE8, 0xE9, 0xEA, 0xEB, 0xEC, 0xED, 0xEE, 0xEF].map
    (fun op => decode [op, 0x35, 0x12]) = [
      .ok (.cpxImm 0x35, [0x12]), .ok (.sbcIzx 0x35, [0x12]), .ok (.nopImmE2 0x35, [0x12]), .ok (.iscIzx 0x35, [0x12]),
      .ok (.cpxZp 0x35, [0x12]), .ok (.sbcZp 0x35, [0x12]), .ok (.incZp 0x35, [0x12]), .ok (.iscZp 0x35, [0x12]),
      .ok (.inx, [0x35, 0x12]), .ok (.sbcImm 0x35, [0x12]), .ok (.nop, [0x35, 0x12]), .ok (.sbcImmEB 0x35, [0x12]),
      .ok (.cpxAbs 0x1235, []), .ok (.sbcAbs 0x1235, []), .ok (.incAbs 0x1235, []), .ok (.iscAbs 0x1235, [])] := by decide

/-- Opcodes 0xF0 to 0xFF. -/
theorem test_decode_rowF : [0xF0, 0xF1, 0xF2, 0xF3, 0xF4, 0xF5, 0xF6, 0xF7, 0xF8, 0xF9, 0xFA, 0xFB, 0xFC, 0xFD, 0xFE, 0xFF].map
    (fun op => decode [op, 0x35, 0x12]) = [
      .ok (.beq 0x35, [0x12]), .ok (.sbcIzy 0x35, [0x12]), .ok (.jamF2, [0x35, 0x12]), .ok (.iscIzy 0x35, [0x12]),
      .ok (.nopZpxF4 0x35, [0x12]), .ok (.sbcZpx 0x35, [0x12]), .ok (.incZpx 0x35, [0x12]), .ok (.iscZpx 0x35, [0x12]),
      .ok (.sed, [0x35, 0x12]), .ok (.sbcAby 0x1235, []), .ok (.nopImpFA, [0x35, 0x12]), .ok (.iscAby 0x1235, []),
      .ok (.nopAbxFC 0x1235, []), .ok (.sbcAbx 0x1235, []), .ok (.incAbx 0x1235, []), .ok (.iscAbx 0x1235, [])] := by decide

/-! The CPU bus and the PPU bus: V20.1 to V20.18. -/

/-- Reset, with some PPU fields changed. -/
def ppuAt (f : Ppu → Ppu) : State := State.reset.mapPpu f

/-- Reset, with the mirroring given. -/
def mirrored (m : Mirroring) : State := { State.reset with cart := { Cart.empty with mirroring := m } }

theorem test_V20_1_work_memory_mirrors : (memRead 0x1800 (memWrite 0x0800 0x5A State.reset)).1 = 0x5A := by decide +kernel

theorem test_V20_3_status_mirror : (let r := memRead 0x3FFA (ppuAt fun p => { p with vblank := true, w := true })
    (r.1, r.2.ppu.vblank, r.2.ppu.w)) = (0x80, false, false) := by decide +kernel

theorem test_V20_4_open_bus : (memRead 0x4015 State.reset).1 = 0x00 := by decide +kernel

theorem test_V20_5_sound_write : (let t := memWrite 0x4017 0x40 State.reset
    (t.orch.soundQueue, t.orch.shift0, t.orch.shift1)) = ([(0x4017, 0x40)], 0, 0) := by decide +kernel

theorem test_V20_8_cartridge_first :
    (memRead 0x0010 (supply (State.reset.setWork 0x0010 0x11) (0x8000, 0xEE))).1 = 0x11 ∧
    (memRead 0x0010 ((State.reset.setWork 0x0010 0x11).setCart
      { Cart.empty with cpuChips := [Chip.one 0x0010 0xEE] })).1 = 0xEE := by decide +kernel

theorem test_V20_9_controller : (controllerReads (memRead 0x4016) 9 (memWrite 0x4016 0x00
    { State.reset with inputs := { State.reset.inputs with controller0 := 0xA5 } })).1 = [1, 0, 1, 0, 0, 1, 0, 1, 0] := by
  decide +kernel

theorem test_V20_10_read16 : (read16 0x00FF ((State.reset.setWork 0x00FF 0x34).setWork 0x0100 0x12)).1 = 0x1234 := by
  decide +kernel

theorem test_V20_11_vertical : (ppuRead 0x2C00 (ppuWrite 0x2400 0x11 (mirrored .vertical))).1 = 0x11 := by decide +kernel

theorem test_V20_12_horizontal : (ppuRead 0x2000 (ppuWrite 0x2400 0x11 (mirrored .horizontal))).1 = 0x11 := by
  decide +kernel

theorem test_V20_13_upper_mirror : (ppuRead 0x3123 (ppuWrite 0x2123 0x66 State.reset)).1 = 0x66 := by decide +kernel

theorem test_V20_14_backdrop : (ppuRead 0x3F00 (ppuWrite 0x3F10 0x2A State.reset)).1 = 0x2A := by decide +kernel

theorem test_V20_15_palette_mask : (ppuRead 0x3F21 (ppuWrite 0x3F01 0xFF State.reset)).1 = 0x3F := by decide +kernel

theorem test_V20_16_gray : (ppuRead 0x3F01 (ppuWrite 0x3F01 0x2D (ppuAt fun p => { p with mask := 0x01 }))).1 = 0x20 := by
  decide +kernel

theorem test_V20_17_fourteen_bits : (ppuRead 0x7FFF (ppuWrite 0x3F1F 0x15 State.reset)).1 = 0x15 := by decide +kernel

theorem test_V20_18_pattern : (ppuRead 0x1005 (ppuWrite 0x1005 0x3C State.reset)).1 = 0x3C := by decide +kernel

/-- A cartridge that would claim 0x3F01 for reads and writes, in a state whose palette byte 1 is 0x7A. -/
def paletteClaimed : State :=
  (ppuAt fun p => { p with palette := [(1, 0x7A)] }).setCart
    { Cart.empty with ppuChips := [{ Chip.one 0x3F01 0xEE with writable := true }] }

/-- D31: from 0x3F00 up the cartridge is not asked; the read is the palette byte under the mask, 0x7A & 0x3F = 0x3A. -/
theorem test_D31_palette_read : (ppuRead 0x3F01 paletteClaimed).1 = 0x3A := by decide +kernel

theorem test_D31_palette_write : (ppuWrite 0x3F01 0x15 paletteClaimed).ppu.palette = [(1, 0x15)] := by decide +kernel

/-! The PPU ports: V47.1 to V47.14. -/

/-- Port writes in order. -/
def writes (ws : List (Word × Byte)) (s : State) : State := ws.foldl (fun s w => memWrite w.1 w.2 s) s

theorem test_V47_1_control : (let p := (memWrite 0x2000 0x90 (ppuAt fun p => { p with t := 0x0C00 })).ppu
    (p.ctrl, p.t)) = (0x90, 0x0000) := by decide +kernel

theorem test_V47_2_control : (memWrite 0x2000 0x03 State.reset).ppu.t = 0x0C00 := by decide +kernel

theorem test_V47_3_status :
    (let r := memRead 0x2002 (ppuAt fun p => { p with vblank := true, spr0Hit := true, dataBuffer := 0x3F, w := true })
    (r.1, (memRead 0x2002 r.2).1, r.2.ppu.w)) = (0xDF, 0x5F, false) := by decide +kernel

theorem test_V47_4_oam : (let s := writes [(0x2003, 0xFF), (0x2004, 0x12)] State.reset
    (s.ppu.oamByte 0xFF, s.ppu.oamAddr, (memRead 0x2004 s).2.ppu.oamAddr)) = (0x12, 0x00, 0x00) := by decide +kernel

theorem test_V47_5_scroll : (let p := (writes [(0x2005, 0x7D), (0x2005, 0x5E)] State.reset).ppu
    (p.fineX, p.t, p.w, p.v)) = (5, 0x616F, false, 0) := by decide +kernel

theorem test_V47_7_address : (let s := memWrite 0x2006 0xFF (ppuAt fun p => { p with t := 0x7FFF })
    let u := memWrite 0x2006 0xFF s
    (s.ppu.t, u.ppu.t, u.ppu.v, u.ppu.w)) = (0x3FFF, 0x3FFF, 0x3FFF, false) := by decide +kernel

theorem test_V47_8_shared_toggle : (let p := (writes [(0x2005, 0x20), (0x2006, 0x21)] State.reset).ppu
    (p.t, p.v, p.fineX, p.w)) = (0x0021, 0x0021, 0, false) := by decide +kernel

theorem test_V47_10_delayed_read :
    (let s := ppuWrite 0x2001 0xBB (ppuWrite 0x2000 0xAA (ppuAt fun p => { p with v := 0x2000 }))
     let a := memRead 0x2007 s
     let b := memRead 0x2007 a.2
     let c := memRead 0x2007 b.2
     (a.1, b.1, c.1, c.2.ppu.v)) = (0x00, 0xAA, 0xBB, 0x2003) := by decide +kernel

theorem test_V47_11_palette_read :
    (let r := memRead 0x2007 (ppuWrite 0x3F01 0x7A (ppuAt fun p => { p with v := 0x3F01, dataBuffer := 0x55, ctrl := 0x04 }))
     (r.1, r.2.ppu.dataBuffer, r.2.ppu.v)) = (0x3A, 0x3A, 0x3F21) := by decide +kernel

theorem test_V47_12_data_write : (let t := memWrite 0x2007 0x0F (ppuAt fun p => { p with v := 0x3F10 })
    (t.ppu.palette, t.ppu.v, t.ppu.dataBuffer)) = ([(0x00, 0x0F)], 0x3F11, 0x00) := by decide +kernel

theorem test_V47_13_data_wrap : (let t := memWrite 0x2007 0x01 (ppuAt fun p => { p with v := 0x7FFF })
    (t.ppu.palette, t.ppu.v)) = ([(0x1F, 0x01)], 0x0000) := by decide +kernel

theorem test_V47_14_against_direction :
    (memRead 0x2000 (ppuAt fun p => { p with ctrl := 0x55 })).1 = 0x00 ∧ (memWrite 0x2002 0xFF State.reset).ppu.w = false := by
  decide +kernel

theorem test_V47_15_nmi_enable_late :
    (memWrite 0x2000 0x80 (ppuAt fun p => { p with vblank := true })).ppu.nmiRequest = false := by decide +kernel

/-! The raster engine: V48.1 to V48.20. -/

theorem test_V48_1_tile_address : ntAddr 0x38A6 = 0x28A6 := by decide

theorem test_V48_2_attribute : (attrAddr 0x38A6, attrQuadrant 0x38A6 0xE4) = (0x2BC9, 1) := by decide

theorem test_V48_3_attribute : (attrAddr 0x0043, attrQuadrant 0x0043 0xE4) = (0x23C0, 3) := by decide

theorem test_V48_4_pattern_address :
    patternAddr (ppuAt fun p => { p with ctrl := 0x10, nextId := 0x41, v := 0x3000 }).ppu = 0x1413 := by decide +kernel

theorem test_V48_5_load_shifters :
    (let p := loadShifters (ppuAt fun p =>
      { p with bgPatLo := 0xAB00, nextLo := 0xCD, nextAttr := 2, bgAttLo := 0xFF00, bgAttHi := 0x0000 }).ppu
     (p.bgPatLo, p.bgAttLo, p.bgAttHi)) = (0xABCD, 0xFF00, 0x00FF) := by decide +kernel

theorem test_V48_6_increment_x :
    ([0x08, 0x00].map fun m => (incrementX (ppuAt fun p => { p with v := 0x001F, mask := m }).ppu).v) = [0x0400, 0x001F] := by
  decide +kernel

/-- `fine_y`, `coarse_y`, `nt_y` as V48.7 lists them. -/
def rowOf (y c n : Nat) : BitVec 15 := scroll (BitVec.ofNat 3 y) (BitVec.ofNat 1 n) 0 (BitVec.ofNat 5 c) 0

theorem test_V48_7_increment_y :
    ([rowOf 7 29 0, rowOf 7 31 0, rowOf 7 30 1, rowOf 6 29 0].map fun v =>
      (incrementY (ppuAt fun p => { p with v := v, mask := 0x10 }).ppu).v)
    = [rowOf 0 0 1, rowOf 0 0 0, rowOf 0 31 1, rowOf 7 29 0] := by decide +kernel

theorem test_V48_8_transfer_x :
    (transferX (ppuAt fun p => { p with v := 0x7FFF, mask := 0x08 }).ppu).v = 0x7BE0 := by decide +kernel

theorem test_V48_9_transfer_y :
    (transferY (ppuAt fun p => { p with t := 0x7FFF, mask := 0x08 }).ppu).v = 0x7BE0 := by decide +kernel

/-- The shifters of V48.10. -/
def background (mask : Byte) (cycle : Nat) : Ppu := (ppuAt fun p =>
  { p with bgPatLo := 0x1000, bgPatHi := 0x1000, bgAttHi := 0x1000, fineX := 3, mask := mask, cycle := cycle }).ppu

theorem test_V48_10_background_pixel : backgroundPixel (background 0x0A 1) = { px := 3, pal := 2 } := by decide +kernel

theorem test_V48_11_left_clip : [8, 9].map (fun c => backgroundPixel (background 0x08 c)) =
    [{ px := 0, pal := 0 }, { px := 3, pal := 2 }] := by decide +kernel

/-- A PPU whose OAM Y bytes are `f n`, all other bytes 0. -/
def withYs (line : Int) (f : Nat → Byte) : Ppu := (ppuAt fun p => { p with
  scanline := line
  oam := (List.range 64).flatMap fun n => [(4 * n, f n), (4 * n + 1, 0), (4 * n + 2, 0), (4 * n + 3, 0)] }).ppu

theorem test_V48_12_evaluation :
    (let p := evaluateSprites (withYs 100 fun n => if n = 0 then 93 else if n = 1 then 100 else if n = 2 then 92 else 0xFF)
     (p.spriteCount, p.spr0Possible, p.slots.map SpriteSlot.y, p.overflow))
    = (2, true, [93, 100, 0xFF, 0xFF, 0xFF, 0xFF, 0xFF, 0xFF], false) := by decide +kernel

theorem test_V48_13_overflow :
    ([9, 8].map fun last =>
      let p := evaluateSprites (withYs 50 fun n => if 1 ≤ n ∧ n ≤ last then 50 else 0xFF)
      (p.spriteCount, p.spr0Possible, p.overflow)) = [(8, false, true), (8, false, false)] := by decide +kernel

/-- A slot by its first three bytes. -/
def slotYTA (y tile attr : Byte) : SpriteSlot := { SpriteSlot.blank with y := y, tile := tile, attr := attr }

theorem test_V48_14_sprite_rows :
    (let tall := (ppuAt fun p => { p with ctrl := 0x20, scanline := 30 }).ppu
     let small := (ppuAt fun p => { p with scanline := 21 }).ppu
     [spriteAddr tall (slotYTA 20 0x05 0x00), spriteAddr tall (slotYTA 20 0x05 0x80), spriteAddr small (slotYTA 20 0x20 0x80)])
    = [0x1052, 0x1045, 0x0206] := by decide +kernel

/-- R412 for an 8 by 8 sprite evaluated as 8 by 16: id 0x20, row 10, no flip, so `line` is 10 and the address 0x020A. -/
theorem test_R412_row_above_7 :
    spriteAddr (ppuAt fun p => { p with scanline := 30 }).ppu (slotYTA 20 0x20 0x00) = 0x020A := by decide +kernel

/-- R412: planes 0x17 and 0x80 of tile 0, row 0, at 0x0000 and 0x0008, for a slot flipped horizontally: 0xE8 and 0x01; the
slot that is not in use stays. -/
theorem test_R412_fetch_sprites :
    (let s := fetchSprites (ppuAt fun p => { p with
        scanline := 20, cycle := 340, pattern := [(0, 0x17), (8, 0x80)], spriteCount := 1
        slots := [slotYTA 20 0x00 0x40, slotYTA 20 0x00 0x40] })
     s.ppu.slots.map fun q => (q.lo, q.hi)) = [(0xE8, 0x01), (0x00, 0x00)] := by decide +kernel

theorem test_V48_15_flip_byte : [0x17, 0x80, 0xFF].map flipByte = [0xE8, 0x01, 0xFF] := by decide

/-- The one slot of V48.16 after `n` updates. -/
def sprite16 (n : Nat) (cycle : Nat) : Ppu := (List.range n).foldl (fun p _ => updateSprites p) (ppuAt fun p => { p with
  slots := { y := 0, tile := 0, attr := 0x01, x := 3, lo := 0x80, hi := 0x00 } :: List.replicate 7 SpriteSlot.blank
  spriteCount := 1, mask := 0x14, cycle := cycle }).ppu

theorem test_V48_16_sprite_position :
    (foregroundPixel (sprite16 3 4)).pixel = { px := 1, pal := 5 } ∧ (foregroundPixel (sprite16 3 4)).front = true ∧
    (foregroundPixel (sprite16 2 3)).pixel.px = 0 ∧ (foregroundPixel (sprite16 4 5)).pixel.px = 0 := by decide +kernel

theorem test_V48_17_composite :
    pixelAddr (composite { px := 2, pal := 3 } SpritePixel.clear) = 0x3F0E := by decide

theorem test_V48_18_19_priority :
    ([true, false].map fun front =>
      let fg : SpritePixel := { pixel := { px := 3, pal := 5 }, front := front, zero := true }
      let p := (ppuAt fun p => { p with spr0Possible := true, mask := 0x1E, scanline := 10, cycle := 100 }).ppu
      (pixelAddr (composite { px := 1, pal := 2 } fg), spriteZeroHit p { px := 1, pal := 2 } fg))
    = [(0x3F17, true), (0x3F09, true)] := by decide +kernel

theorem test_V48_20_gray_backdrop :
    (compose (ppuWrite 0x3F00 0x2D (ppuAt fun p => { p with mask := 0x01, scanline := 0, cycle := 1 }))).ppu.frame
    = [(0, 0x20)] := by decide +kernel

theorem test_V48_21_vblank :
    ([(0x80 : Byte), 0x00].map fun c =>
      let p := (ppuTick (ppuAt fun p => { p with scanline := 241, cycle := 1, ctrl := c })).ppu
      (p.vblank, p.nmiRequest)) = [(true, true), (true, false)] := by decide +kernel

theorem test_V48_23_odd_frame_skip :
    ([(0x08 : Byte), 0x00].map fun m =>
      let s := ppuWrite 0x3F00 0x0F (ppuAt fun p => { p with scanline := 0, cycle := 0, oddFrame := true, mask := m })
      (ppuTick s).ppu.cycle) = [2, 1] := by decide +kernel

theorem test_V48_24_scanline_end :
    ([(0x08 : Byte), 0x00].map fun m =>
      (ppuTick (ppuAt fun p => { p with scanline := 239, cycle := 260, mask := m })).outputs.scanlineEnd)
    = [true, false] := by decide +kernel

/-! The orchestrator, interrupts and reset: V49.1 to V49.5, V60.1 to V60.5. -/

theorem test_V49_1_cpu_slots : ([0, 1, 2, 3].map fun n =>
    isCpuSlot (State.reset.mapOrch fun o => { o with counter := n })) = [true, false, false, true] := by decide +kernel

/-- A transfer from page 2 in flight, its byte 0xFF being 0x5A. -/
def transfer (align : Bool) (index : Byte) (counter : Nat) : State := (State.reset.setWork 0x02FF 0x5A).mapOrch fun o =>
  { o with dmaPage := 2, dmaActive := true, dmaAlign := align, dmaIndex := index, counter := counter }

theorem test_V49_2_odd_slot_aligns : (dmaSlot (transfer true 0 303)).orch.dmaAlign = false := by decide +kernel

theorem test_V49_3_even_slot_waits : (dmaSlot (transfer true 0 9252)).orch.dmaAlign = true := by decide +kernel

theorem test_V49_2_last_byte :
    (let s := dmaSlots 2 (transfer false 0xFF 1836)
     (s.ppu.oam, s.orch.dmaActive, s.orch.dmaAlign, s.orch.dmaIndex)) = ([(0xFF, 0x5A)], false, true, 0x00) := by decide +kernel

theorem test_V49_5_nmi_before_irq :
    (let s := supply (supply { State.reset with cart := { Cart.empty with irq := true } } (0xFFFA, 0x00)) (0xFFFB, 0xC0)
     let u := routeIrq (routeNmi ((s.setP (Flags.ofByte 0x20)).mapPpu fun p => { p with nmiRequest := true }))
     (u.cpu.pc, u.cpu.s, u.cart.irq, u.ppu.nmiRequest, u.outputs.irqClear)) = (0xC000, 0xFA, false, false, true) := by
  decide +kernel

/-- What an interrupt left: the three stack bytes, S, P, PC and the cycles owed. -/
def trapped (s : State) (at_ : List Word) : List Byte × Byte × Byte × Word × Nat :=
  (at_.map s.workByte, s.cpu.s, s.cpu.p.toByte, s.cpu.pc, s.cpu.cycles)

theorem test_V60_1_reset :
    (let t := systemReset ({ bytes := [], a := 1, x := 2, y := 3, s := 4, p := 0xEB, mem := [(0xFFFC, 0x00), (0xFFFD, 0x80)] }
      : Start).state
     ([t.cpu.a, t.cpu.x, t.cpu.y, t.cpu.s, t.cpu.p.toByte], t.cpu.pc, t.cpu.cycles)) = ([0, 0, 0, 0xFD, 0x24], 0x8000, 8) := by
  decide +kernel

theorem test_V60_2_nmi :
    trapped (nmi ({ bytes := [], pc := 0x8123, p := 0x21, mem := [(0xFFFA, 0x00), (0xFFFB, 0xC0)] } : Start).state)
      [0x01FD, 0x01FC, 0x01FB] = ([0x81, 0x23, 0x21], 0xFA, 0x25, 0xC000, 8) := by decide +kernel

theorem test_V60_3_irq :
    trapped (irq ({ bytes := [], pc := 0x8123, p := 0x20, mem := [(0xFFFE, 0x00), (0xFFFF, 0x90)] } : Start).state)
      [0x01FD, 0x01FC, 0x01FB] = ([0x81, 0x23, 0x20], 0xFA, 0x24, 0x9000, 7) := by decide +kernel

theorem test_V60_4_irq_masked : trapped (irq ({ bytes := [], pc := 0x8123 } : Start).state) [] = ([], 0xFD, 0x24, 0x8123, 0) := by
  decide +kernel

theorem test_V60_5_stack_wraps :
    trapped (nmi ({ bytes := [], pc := 0xABCD, s := 0x01, p := 0xE5, mem := [(0xFFFA, 0x00), (0xFFFB, 0x90)] } : Start).state)
      [0x0101, 0x0100, 0x01FF] = ([0xAB, 0xCD, 0xE5], 0xFE, 0xE5, 0x9000, 8) := by decide +kernel

/-- R533: the first opcode is fetched in tick 24, after eight idle CPU ticks: in tick 21 the last owed cycle is spent. -/
theorem test_R533_idle_ticks : (match step ((State.reset.setCycles 1).mapOrch fun o => { o with counter := 21 }) with
    | .next t => (t.cpu.cycles, t.cpu.pc, t.orch.counter)
    | _ => (99, 0, 0)) = (0, 0x0000, 22) := by decide +kernel

/-- `withFetchWord` places 0xFFE6, that is INC $FF, at the reset PC, and the very next step runs it: cost 5, the fetching
tick included. -/
theorem test_withFetchWord : (match step ((State.reset.setWork 0xFF 0x7F).withFetchWord 16 0xFFE6) with
    | .next t => (t.workByte 0x00FF, t.cpu.pc, t.cpu.cycles)
    | _ => (0, 0, 0)) = (0x80, 0x0002, 4) := by decide +kernel

/-! Well-formedness: an ill-formed term for each check, and `decodeTableWord` on a short word. -/

theorem test_formError_empty : formError [] = some .empty := by decide

theorem test_formError_tooShort : formError [0x6C, 0xFF] = some .tooShort := by decide

theorem test_formError_tooLong : formError [0xAA, 0x00] = some .tooLong := by decide

theorem test_refused_words : bytesWellFormed [] = false ∧ bytesWellFormed [0x6C, 0xFF] = false ∧
    bytesWellFormed [0xAA, 0x00] = false ∧ bytesWellFormed [0x6C, 0xFF, 0x02] = true := by decide

theorem test_decode_refuses : decode [] = .error .noBytes ∧ decode [0x6C, 0xFF] = .error (.truncated 0x6C) := by decide

theorem test_decodeTableWord : decodeTableWord 8 0xA9 = some (.ldaImm 0x00) ∧
    decodeTableWord 24 0x12347D = some (.adcAbx 0x1234) := by decide

/-! Witnesses: for every statement that has hypotheses, a concrete state and operands that meet them, clause by clause and
at the boundary of each range. -/

/-- The next state of an outcome, or the reset state. -/
def nextOf (r : Result) : State :=
  match r with
  | .next t => t
  | _ => State.reset

/-- At a position of the frame. -/
def at_ (line : Int) (dot : Nat) : State := ppuAt fun p => { p with scanline := line, cycle := dot }

theorem witness_LoadResult : (Instr.ldaIzy 0xFF).mnemonic = .lda ∧ (Instr.ldxAby 0xFFFF).mnemonic = .ldx ∧
    (Instr.ldyImm 0x00).mnemonic = .ldy ∧ (Instr.laxZpy 0xFF).mnemonic = .lax := by decide

theorem witness_StoreResult : (Instr.staAbx 0xFFFF).mnemonic = .sta ∧ (Instr.stxZpy 0xFF).mnemonic = .stx ∧
    (Instr.styZpx 0x00).mnemonic = .sty ∧ (Instr.saxIzx 0xFF).mnemonic = .sax := by decide

theorem witness_AddResult : (Instr.adcImm 0xFF).mnemonic = .adc ∧ (Instr.adcIzy 0x00).mnemonic = .adc := by decide

theorem witness_SubtractResult : (Instr.sbcImm 0xFF).mnemonic = .sbc ∧ (Instr.sbcImmEB 0x00).mnemonic = .sbc := by decide

theorem witness_LogicResult : (Instr.andImm 0x00).mnemonic = .and ∧ (Instr.oraAbx 0xFFFF).mnemonic = .ora ∧
    (Instr.eorIzy 0xFF).mnemonic = .eor := by decide

theorem witness_CompareResult : (Instr.cmpAby 0xFFFF).mnemonic = .cmp ∧ (Instr.cpxImm 0x00).mnemonic = .cpx ∧
    (Instr.cpyZp 0xFF).mnemonic = .cpy ∧ (Instr.bitAbs 0x2002).mnemonic = .bit := by decide

theorem witness_ModifyResult : (Instr.incAbx 0xFFFF).mnemonic = .inc ∧ (Instr.decZp 0x00).mnemonic = .dec ∧
    Instr.aslAcc.mnemonic = .asl ∧ (Instr.lsrZpx 0xFF).mnemonic = .lsr ∧ Instr.rolAcc.mnemonic = .rol ∧
    (Instr.rorAbs 0x0000).mnemonic = .ror := by decide

theorem witness_BranchResult : (Instr.beq 0x80).operand = .rel 0x80 ∧ (Instr.bpl 0x7F).operand = .rel 0x7F := by decide

theorem witness_NopResult : Instr.nop.mnemonic = .nop ∧ (Instr.nopAbxFC 0xFFFF).mnemonic = .nop ∧
    Instr.jamF2.mnemonic = .jam ∧ (Instr.ane 0xFF).mnemonic = .ane ∧ (Instr.lxa 0x00).mnemonic = .lxa ∧
    (Instr.las 0xFFFF).mnemonic = .las ∧ (Instr.shaIzy 0xFF).mnemonic = .sha ∧ (Instr.shx 0x0000).mnemonic = .shx ∧
    (Instr.shy 0xFFFF).mnemonic = .shy ∧ (Instr.tas 0xFFFF).mnemonic = .tas := by decide

theorem witness_MemoryCombineResult : (Instr.sloAbx 0xFFFF).mnemonic = .slo ∧ (Instr.rlaIzx 0xFF).mnemonic = .rla ∧
    (Instr.sreIzy 0x00).mnemonic = .sre ∧ (Instr.rraZp 0xFF).mnemonic = .rra ∧ (Instr.dcpAby 0x0000).mnemonic = .dcp ∧
    (Instr.iscZpx 0xFF).mnemonic = .isc := by decide

theorem witness_ImmediateCombineResult : Instr.anc0B 0x80 = .anc0B 0x80 ∧ Instr.anc2B 0xFF = .anc2B 0xFF := by decide

theorem witness_InstructionCost : modeExtra (.ldaAbx 0xFFFF) (State.reset.setX 0x01) = 1 ∧
    modeExtra (.staAby 0x02FF) (State.reset.setY 0x01) = 1 ∧
    modeExtra (.ldaIzy 0x10) (((State.reset.setY 0x01).setWork 0x10 0xFF).setWork 0x11 0x02) = 1 := by decide +kernel

theorem witness_RegisterFrame : exec .nop State.reset = .next (nextOf (exec .nop State.reset)) ∧
    Instr.nop.mnemonic.writesC = false ∧ Instr.nop.mnemonic.writesZN = false ∧ Instr.nop.mnemonic.writesI = false ∧
    Instr.nop.mnemonic.writesD = false ∧ Instr.nop.mnemonic.writesV = false ∧ Instr.nop.mnemonic.writesA = false ∧
    Instr.nop.operand ≠ .acc ∧ Instr.nop.mnemonic.writesX = false ∧ Instr.nop.mnemonic.writesY = false ∧
    Instr.nop.mnemonic.writesS = false ∧ Instr.nop.mnemonic.writesPc = false := ⟨rfl, by decide⟩

theorem witness_NonStoringFrame : exec (.ldaAbs 0x2007) State.reset = .next (nextOf (exec (.ldaAbs 0x2007) State.reset)) ∧
    (Instr.ldaAbs 0x2007).mnemonic.stores = false ∧ (Instr.ldaAbs 0x2007).mnemonic.pushes = false ∧
    (Instr.ldaAbs 0x2007).mnemonic.modifies = false ∧
    exec .rorAcc State.reset = .next (nextOf (exec .rorAcc State.reset)) ∧ Instr.rorAcc.operand = .acc :=
  ⟨rfl, by decide, by decide, by decide, rfl, by decide⟩

theorem witness_StoringFrame : (Instr.staAbs 0x1FFF).mnemonic.stores = true ∧ (Instr.incAbs 0x1FFF).mnemonic.modifies = true ∧
    exec (.staAbs 0x1FFF) State.reset = .next (nextOf (exec (.staAbs 0x1FFF) State.reset)) ∧
    exec (.incAbs 0x1FFF) State.reset = .next (nextOf (exec (.incAbs 0x1FFF) State.reset)) ∧
    (resolve (Instr.staAbs 0x1FFF).operand State.reset).place = .mem 0x1FFF ∧
    (resolve (Instr.incAbs 0x1FFF).operand State.reset).place = .mem 0x1FFF ∧
    sameCell 0x0000 0x1FFF = false ∧ State.reset.cart.oracle = false ∧ plainAddr 0x4000 = true ∧
    sameCell 0x4000 0x1FFF = false ∧
    (∀ ea, (resolve (Instr.staAbs ea).operand State.reset).place = .mem ea) ∧
    (([0x1FFF, 0x2003, 0x3FFF, 0x4004] : List Word).all fun ea =>
      decide (¬ (0x2000 ≤ ea.toNat ∧ ea.toNat < 0x4000 ∧ ea.toNat % 8 = 4))) = true ∧
    (([0x1FFF, 0x2004, 0x3FFE, 0x4007] : List Word).all fun ea =>
      decide (¬ (0x2000 ≤ ea.toNat ∧ ea.toNat < 0x4000 ∧ ea.toNat % 8 = 7))) = true :=
  ⟨by decide, by decide, rfl, rfl, rfl, rfl, by decide, rfl, by decide, by decide, fun _ => rfl, by decide, by decide⟩

theorem witness_PushingFrame : ([Instr.jsr 0x1234, .brk, .pha, .php].all fun i => i.mnemonic.pushes) = true ∧
    (∀ i ∈ [Instr.jsr 0x1234, .brk, .pha, .php], ∃ t, exec i (State.reset.setS 0x00) = .next t) ∧
    sameCell 0x01FD (stackAddr 0x00) = false ∧ sameCell 0x01FD (stackAddr 0xFF) = false ∧
    sameCell 0x01FD (stackAddr 0xFE) = false ∧ plainAddr 0x01FD = true := by
  refine ⟨by decide, ?_, by decide, by decide, by decide, by decide⟩
  simp only [List.forall_mem_cons]
  exact ⟨⟨_, rfl⟩, ⟨_, rfl⟩, ⟨_, rfl⟩, ⟨_, rfl⟩, by simp⟩

theorem witness_DecimalHasNoEffect : (Instr.adcImm 0x09).mnemonic ≠ .php ∧ (Instr.adcImm 0x09).mnemonic ≠ .brk ∧
    exec (.adcImm 0x09) State.reset = .next (nextOf (exec (.adcImm 0x09) State.reset)) := ⟨by decide, by decide, rfl⟩

theorem witness_BusReadMap :
    ((State.reset.setCart { Cart.empty with cpuChips := [Chip.one 0x0010 0xEE] }).cart.cpuRead 0x0010).1 = some 0xEE ∧
    ([0x0000, 0x1FFF, 0x2000, 0x3FFF, 0x4000, 0x4015, 0x4016, 0x4017, 0x4018, 0xFFFF].all fun a =>
      decide ((State.reset.cart.cpuRead a).1 = none)) = true := by decide +kernel

theorem witness_BusWriteMap :
    (({ Cart.empty with cpuChips := [{ Chip.one 0x6000 0x00 with writable := true }] } : Cart).cpuWrite 0x6000 0x01).1 = true ∧
    ([0x0000, 0x1FFF, 0x2000, 0x3FFF, 0x4000, 0x4013, 0x4014, 0x4015, 0x4016, 0x4017, 0x4018, 0xFFFF].all fun a =>
      decide ((State.reset.cart.cpuWrite a 0xFF).1 = false)) = true := by decide +kernel

theorem witness_WorkMemoryMirrors : unclaimed 0x0000 State.reset ∧ unclaimed 0x1FFF State.reset :=
  ⟨⟨rfl, rfl, fun _ => rfl⟩, ⟨rfl, rfl, fun _ => rfl⟩⟩

theorem witness_BusReadEffects : State.reset.cart.oracle = false ∧
    ([0x0000, 0x1FFF, 0x4000, 0x4015, 0x4018, 0xFFFF].all plainAddr) = true := by decide +kernel

theorem witness_ControllerProtocol : unclaimed 0x4016 State.reset ∧ unclaimed 0x4017 State.reset ∧ 7 < 8 ∧ 8 < 9 :=
  ⟨⟨rfl, rfl, fun _ => rfl⟩, ⟨rfl, rfl, fun _ => rfl⟩, by decide⟩

theorem witness_PpuBusMap :
    (({ Cart.empty with ppuChips := [Chip.one 0x0000 0xEE] } : Cart).ppuRead 0x0000).1 = some 0xEE ∧
    (({ Cart.empty with ppuChips := [{ Chip.one 0x1FFF 0x00 with writable := true }] } : Cart).ppuWrite 0x1FFF 0x01).1 = true ∧
    (0x0000 : BitVec 14).toNat < 0x3F00 ∧ (0x1FFF : BitVec 14).toNat < 0x3F00 ∧ 0x3F00 ≤ (0x3F00 : BitVec 14).toNat ∧
    0x3F00 ≤ (0x3FFF : BitVec 14).toNat ∧
    ([0x0000, 0x1FFF, 0x2000, 0x3EFF].all fun a =>
      decide ((State.reset.cart.ppuRead a).1 = none ∧ (State.reset.cart.ppuWrite a 0xFF).1 = false)) = true ∧
    (mirrored .vertical).cart.oracle = false ∧ (mirrored .horizontal).cart.mirroring = .horizontal ∧
    (mirrored (.custom true false false true)).cart.mirroring = .custom true false false true := by decide +kernel

theorem witness_SimplePorts : ∀ n ∈ ([0, 1, 3, 5, 6] : List (BitVec 3)), n = 0 ∨ n = 1 ∨ n = 3 ∨ n = 5 ∨ n = 6 := by decide

theorem witness_ScrollAddressPorts : State.reset.ppu.w = false ∧ (ppuAt fun p => { p with w := true }).ppu.w = true := by
  decide +kernel

theorem witness_ToggleRoundTrip : State.reset.ppu.w = false := rfl

/-- The position a tick starts from, after the skip: as `PositionAdvance` computes it. -/
def startDot (s : State) : Nat := (oddFrameSkip s.ppu).cycle

theorem witness_PositionAdvance : startDot (at_ 0 0) < 340 ∧ startDot (at_ (-1) 339) < 340 ∧
    (340 ≤ startDot (at_ 259 340) ∧ (at_ 259 340).ppu.scanline < 260) ∧
    (340 ≤ startDot (at_ 260 340) ∧ 260 ≤ (at_ 260 340).ppu.scanline) := by decide +kernel

theorem witness_FrameLength : State.reset.ppu.scanline = -1 ∧ State.reset.ppu.cycle = 0 ∧
    State.reset.ppu.frameComplete = false := ⟨rfl, rfl, rfl⟩

/-- On an odd frame with rendering enabled, at (0, 0). -/
def skipping : State := ppuAt fun p => { p with scanline := 0, cycle := 0, oddFrame := true, mask := 0x08 }

theorem witness_RasterSchedule :
    (skipping.ppu.scanline = 0 ∧ skipping.ppu.cycle = 0 ∧ skipping.ppu.oddFrame = true ∧
      (skipping.ppu.mask.getLsbD 3 || skipping.ppu.mask.getLsbD 4) = true) ∧
    (at_ 0 0).ppu.oddFrame = false ∧
    ([-1, 239].all fun l => [0, 1, 2, 255, 256, 257, 258, 259, 260, 261, 279, 280, 304, 305, 320, 321, 337, 338, 339, 340].all
      fun c => decide (-1 ≤ (at_ l c).ppu.scanline ∧ (at_ l c).ppu.scanline ≤ 239 ∧ (at_ l c).ppu.cycle = c)) = true ∧
    240 ≤ (at_ 240 0).ppu.scanline ∧ (at_ 241 1).ppu.scanline = 241 := by decide +kernel

theorem witness_StatusFlagTiming : ((at_ 241 1).ppu.scanline = 241 ∧ (at_ 241 1).ppu.cycle = 1) ∧
    ((at_ (-1) 1).ppu.scanline = -1 ∧ (at_ (-1) 1).ppu.cycle = 1) ∧
    ¬ ((at_ 241 2).ppu.scanline = 241 ∧ (at_ 241 2).ppu.cycle = 1) ∧
    ¬ ((at_ 241 2).ppu.scanline = -1 ∧ (at_ 241 2).ppu.cycle = 1) ∧
    (ppuAt fun p => { p with overflow := true, spr0Hit := true }).ppu.overflow = true ∧
    exec .nop State.reset = .next (nextOf (exec .nop State.reset)) := by
  refine ⟨?_, ?_, ?_, ?_, ?_, rfl⟩ <;> decide +kernel

theorem witness_ScrollMovements : ((State.reset.ppu.mask.getLsbD 3 || State.reset.ppu.mask.getLsbD 4) = false) ∧
    ((skipping.ppu.mask.getLsbD 3 || skipping.ppu.mask.getLsbD 4) = true) ∧
    (0x001E : BitVec 15).toNat % 32 < 31 ∧ (0x001F : BitVec 15).toNat % 32 = 31 ∧
    (rowOf 6 31 1).toNat / 4096 < 7 ∧ (rowOf 7 29 0).toNat / 4096 = 7 ∧ (rowOf 7 29 0).toNat / 32 % 32 = 29 ∧
    (rowOf 7 31 0).toNat / 32 % 32 = 31 ∧ (rowOf 7 30 0).toNat / 32 % 32 = 30 := by decide +kernel

theorem witness_SpriteFetch :
    (at_ 27 340).ppu.scanline - ((slotYTA 20 0x05 0x80).y.toNat : Int) = (7 : Nat) ∧ (at_ 27 340).ppu.ctrl.getLsbD 5 = false ∧
    (ppuAt fun p => { p with scanline := 35, ctrl := 0x20 }).ppu.scanline - ((slotYTA 20 0x05 0x80).y.toNat : Int)
      = (15 : Nat) ∧
    (ppuAt fun p => { p with scanline := 35, ctrl := 0x20 }).ppu.ctrl.getLsbD 5 = true ∧ 7 < 8 ∧ 15 < 16 ∧
    (at_ 35 340).ppu.scanline - ((slotYTA 20 0x05 0x00).y.toNat : Int) = (15 : Nat) ∧
    (slotYTA 20 0x05 0x00).attr.getLsbD 7 = false ∧
    (let p := (ppuAt fun p => { p with spriteCount := 8 }).ppu
     0 < p.spriteCount ∧ 7 < p.spriteCount ∧ p.slots[0]? = some SpriteSlot.blank ∧ p.slots[7]? = some SpriteSlot.blank ∧
      p.spriteCount ≤ 8 ∧ p.slots[8]? = none) := by
  decide +kernel

theorem witness_BackgroundFetches : ∀ k ∈ [1, 3, 5], k = 1 ∨ k = 3 ∨ k = 5 := by decide

/-- The PPU of V48.16 when its sprite is reached, with the left column shown. -/
def reached : Ppu := sprite16 3 4

theorem witness_ForegroundPixel : reached.spriteCount ≤ reached.slots.length ∧
    (reached.mask.getLsbD 4 = true ∧ (reached.mask.getLsbD 2 = true ∨ 9 ≤ reached.cycle)) ∧
    (∃ q, reached.slots[0]? = some q ∧ q.x = 0 ∧ 2 * (q.hi.getLsbD 7).toNat + (q.lo.getLsbD 7).toNat ≠ 0) ∧
    State.reset.ppu.spriteCount = 0 ∧ ¬ State.reset.ppu.mask.getLsbD 4 = true := by
  refine ⟨?_, ?_, ⟨_, rfl, ?_, ?_⟩, ?_, ?_⟩ <;> decide +kernel

theorem witness_ComposePixel : (0 ≤ (at_ 0 1).ppu.scanline ∧ (at_ 0 1).ppu.scanline ≤ 239 ∧ 1 ≤ (at_ 0 1).ppu.cycle ∧
    (at_ 0 1).ppu.cycle ≤ 257) ∧ (at_ 239 257).ppu.scanline ≤ 239 ∧ (at_ 239 257).ppu.cycle ≤ 257 := by decide +kernel

theorem witness_RenderingDisabled : (State.reset.ppu.mask.getLsbD 3 || State.reset.ppu.mask.getLsbD 4) = false ∧
    (ppuTick (ppuAt fun p => { p with spr0Hit := true })).ppu.spr0Hit = true ∧
    ([-1, 239].all fun l => let p := (ppuAt fun p => { p with scanline := l, cycle := 260, mask := 0x10 }).ppu
      (p.mask.getLsbD 3 || p.mask.getLsbD 4) && decide (p.scanline ≤ 239 ∧ p.cycle = 260)) = true := by decide +kernel

/-- TAX placed for the next step. -/
def placedTax : State := State.reset.withFetchWord 8 0xAA

theorem witness_StepRunsDecodedInstruction : placedTax.inputs.reset = false ∧ placedTax.orch.counter % 3 = 0 ∧
    placedTax.orch.dmaActive = false ∧ placedTax.cpu.cycles = 0 ∧ Instr.tax.wellFormed = true ∧
    decode (readBytes (instrLength (memRead (tickBegin placedTax).cpu.pc (tickBegin placedTax)).1)
      (tickBegin placedTax).cpu.pc (tickBegin placedTax)).1 = .ok (.tax, []) := by decide +kernel

/-- A transfer in flight at a value of the system counter. -/
def inFlight (counter : Nat) : State := transfer false 0 counter

theorem witness_TickPhases : (State.reset.inputs.reset = false ∧ (inFlight 1).orch.counter % 3 ≠ 0 ∧
      (inFlight 2).orch.counter % 3 ≠ 0) ∧
    ((inFlight 3).orch.counter % 3 = 0 ∧ (inFlight 3).orch.dmaActive = true) ∧
    (State.reset.orch.counter % 3 = 0 ∧ State.reset.orch.dmaActive = false ∧ 0 < State.reset.cpu.cycles) ∧
    (∃ t, step State.reset = .next t) ∧
    ((tickBegin (inFlight 3)).ppu.nmiRequest = false ∧ (inFlight 3).cart.oracle = false ∧ (inFlight 3).cart.irq = false) := by
  refine ⟨?_, ?_, ?_, ⟨_, rfl⟩, ?_⟩ <;> decide +kernel

theorem witness_DmaSlotRule : ((transfer true 0 303).orch.dmaAlign = true ∧ (transfer true 0 303).orch.counter % 2 = 1) ∧
    ((transfer true 0 306).orch.counter % 2 = 0) ∧
    ((transfer false 0 306).orch.dmaAlign = false ∧ (transfer false 0 306).orch.counter % 2 = 0) ∧
    ((transfer false 0xFF 309).orch.counter % 2 = 1 ∧ (transfer false 0xFF 309).orch.dmaIndex.toNat = 255) := by decide +kernel

theorem witness_DmaCopiesPage : (inFlight 306).orch.dmaActive = true ∧ (inFlight 306).orch.dmaAlign = false ∧
    (inFlight 306).orch.dmaIndex = 0 ∧ (inFlight 306).orch.counter % 2 = 0 ∧ (inFlight 306).orch.dmaPage.toNat < 0x20 ∧
    ∀ k : Byte, unclaimed (wordOf (inFlight 306).orch.dmaPage k) (inFlight 306) :=
  ⟨rfl, rfl, rfl, rfl, by decide +kernel, fun _ => ⟨rfl, rfl, fun _ => rfl⟩⟩

theorem witness_InterruptSequences : State.reset.cpu.p.i = true ∧ (State.reset.setP (Flags.ofByte 0x20)).cpu.p.i = false := by
  decide +kernel

/-- NMI requested or not, IRQ pending or not. -/
def requests (n q : Bool) : State := { ppuAt fun p => { p with nmiRequest := n } with cart := { Cart.empty with irq := q } }

theorem witness_InterruptRouting : ∀ n q : Bool, (requests n q).cart.oracle = false ∧ (requests n q).ppu.nmiRequest = n ∧
    (requests n q).cart.irq = q := by decide +kernel

theorem witness_TrapThenReturn : ∀ k : Byte, unclaimed (stackAddr k) State.reset := fun _ => ⟨rfl, rfl, fun _ => rfl⟩

theorem witness_ResetSequence : ({ State.reset with inputs := { State.reset.inputs with reset := true } }).inputs.reset = true :=
  rfl

theorem witness_SoundAndAudio : State.reset.orch.audioTime + 1 / State.reset.params.graphicsClockHz < 1 / 44100 ∧
    1 / 44100 ≤ (State.reset.mapOrch fun o => { o with audioTime := 1 / 44100 }).orch.audioTime
      + 1 / State.reset.params.graphicsClockHz := by decide +kernel

theorem witness_EncodeDecode : decode [0x6C, 0xFF, 0x02, 0xEA] = .ok (.jmpInd 0x02FF, [0xEA]) := by decide

/-- A state that is not the reset state: reset with a value in A and a byte in work memory. -/
def used : State := (State.reset.setA 0x12).setWork 0x07FF 0x34

theorem witness_StepKeepsInvariant : used.Inv ∧ ∃ t, step used = .next t := by
  refine ⟨⟨⟨rfl, rfl, rfl, rfl, rfl, rfl, ?_, ?_, ?_, ?_⟩, ⟨?_, ?_, ?_⟩, ⟨rfl, rfl⟩, ⟨?_, ?_, ?_, ?_⟩, ?_, rfl⟩, ⟨_, rfl⟩⟩ <;>
    decide +kernel

end Sys2Proof.Tests
end

section
/-! SUPPORT. What holds of every state: the invariant (O59, O60), the frame of the registers (O19) and the Decimal flag
(O23). -/

namespace Sys2Proof.Machine

/-! The invariant: it holds after reset, and a step keeps it. -/

/-- The invariant between two steps, from the parts that hold inside one. -/
theorem Inner.toInv {s : State} (h : Inner s) (hc : s.cpu.cycles ≤ s.params.maxCycles) (hq : s.orch.soundQueue = []) :
    s.Inv := ⟨h.ppu, h.orch, h.cart, h.params, hc, hq⟩

/-- R530: a system reset keeps the invariant. -/
theorem systemReset_keeps_inv {s : State} (h : s.Inv) : (systemReset s).Inv := by
  obtain ⟨inner, params, queue, cycles⟩ := systemReset_spec s
  refine (inner h.inner).toInv ?_ queue
  rw [params, cycles]
  unfold Params.maxCycles
  omega

/-- R450: a system tick keeps the invariant. -/
theorem systemTick_keeps_inv {s t : State} (h : s.Inv) (hs : systemTick s = .next t) : t.Inv := by
  obtain ⟨beginInner, beginParams, -, beginOrch, beginCpu⟩ := tickBegin_spec s
  obtain ⟨u, hu, slotInner, slotParams, -, slotQueue, slotCycles⟩ := cpuSlot_spec (tickBegin s)
  obtain ⟨endInner, endParams, -, endQueue, endCycles⟩ := tickEnd_spec u
  obtain rfl : tickEnd u = t := by simpa [systemTick, hu] using hs
  have params : u.params = s.params := slotParams.trans beginParams
  refine (endInner (slotInner (beginInner h.inner))).toInv ?_ ?_
  · have owed := h.cycles
    rw [beginCpu] at slotCycles
    rw [params] at endCycles
    rw [endParams, params]
    unfold Params.maxCycles at owed ⊢
    omega
  · rw [endQueue]
    exact slotQueue (by rw [beginOrch]; exact h.queue)

/-- Settles O60: a step is the system reset (R530) or a system tick (R450), and both keep the invariant. -/
theorem stepKeepsInvariant : Obligations.StepKeepsInvariant := by
  intro s t h hs
  unfold step at hs
  split at hs
  · injection hs with hs
    exact hs ▸ systemReset_keeps_inv h
  · exact systemTick_keeps_inv h hs

/-- Settles O59: the memories are empty, the slots are the eight blank ones, and the cost owed is that of a reset. -/
theorem resetHasInvariant : Obligations.ResetHasInvariant where
  ppu :=
    { oam := rfl, nametable := rfl, palette := rfl, pattern := rfl, frame := rfl, slots := rfl
      count := by decide, zero := by decide, line := by decide, dot := by decide }
  orch := { work := rfl, align := by decide, audio := le_rfl }
  cart := { cpu := rfl, ppu := rfl }
  params := { reset := by decide, irq := by decide, nmi := by decide, clock := by norm_num [State.reset, Params.defaults] }
  cycles := by decide
  queue := rfl

/-! The frame of the registers (R25): which flags and registers each instruction leaves alone. -/

/-- What the CPU registers after an instruction of mnemonic `m` and operand `o` have in common with those before it: every
flag and register the instruction is not listed for (R25). -/
structure RegistersKept (m : Mnemonic) (o : Operand) (old new : Cpu) : Prop where
  c : m.writesC = false → new.p.c = old.p.c
  z : m.writesZN = false → new.p.z = old.p.z
  n : m.writesZN = false → new.p.n = old.p.n
  i : m.writesI = false → new.p.i = old.p.i
  d : m.writesD = false → new.p.d = old.p.d
  v : m.writesV = false → new.p.v = old.p.v
  a : m.writesA = false → o ≠ .acc → new.a = old.a
  x : m.writesX = false → new.x = old.x
  y : m.writesY = false → new.y = old.y
  s : m.writesS = false → new.s = old.s
  pc : m.writesPc = false → new.pc = old.pc

section
variable {m : Mnemonic} {o : Operand} {n : Nat} {s t : State}

theorem RegistersKept.ofEq {old new : Cpu} (h : new = old) : RegistersKept m o old new := by
  subst h
  constructor <;> intros <;> rfl

theorem RegistersKept.refl (c : Cpu) : RegistersKept m o c c := .ofEq rfl

theorem RegistersKept.trans {c d e : Cpu} (h : RegistersKept m o c d) (k : RegistersKept m o d e) :
    RegistersKept m o c e where
  c w := (k.c w).trans (h.c w)
  z w := (k.z w).trans (h.z w)
  n w := (k.n w).trans (h.n w)
  i w := (k.i w).trans (h.i w)
  d w := (k.d w).trans (h.d w)
  v w := (k.v w).trans (h.v w)
  a w ho := (k.a w ho).trans (h.a w ho)
  x w := (k.x w).trans (h.x w)
  y w := (k.y w).trans (h.y w)
  s w := (k.s w).trans (h.s w)
  pc w := (k.pc w).trans (h.pc w)

/-- The cost owed is no register, so `finish` keeps what is kept. -/
theorem RegistersKept.finish {c : Cpu} (h : RegistersKept m o c s.cpu) (ht : Machine.finish n s = .next t) :
    RegistersKept m o c t.cpu := by
  injection ht with ht
  subst ht
  exact { h with }

/-- A control transfer may set PC. -/
theorem RegistersKept.setPc {c : Cpu} {w : Word} (hm : m.writesPc = true) (h : RegistersKept m o c s.cpu) :
    RegistersKept m o c (s.setPc w).cpu :=
  { h with pc := by simp [hm] }

/-- The accumulator is the place of the accumulator mode only (R174). -/
theorem resolve_place_acc (h : (resolve o s).place = .acc) : o = .acc := by
  cases o with
  | acc => rfl
  | _ => cases h

/-- A write to the place of the operand changes a register in the accumulator mode only, and then A. -/
theorem writePlace_keeps (v : Byte) (u : State) : RegistersKept m o u.cpu (writePlace (resolve o s).place v u).cpu := by
  cases hp : (resolve o s).place with
  | acc => exact { RegistersKept.refl (o := o) u.cpu with a := fun _ ho => absurd (resolve_place_acc hp) ho }
  | none | imm _ => exact .refl _
  | mem ea => exact .ofEq (memWrite_cpu ea v u)

/-- Reading the operand changes no register. -/
theorem readOperand_keeps : RegistersKept m o s.cpu (readPlace (resolve o s).place (resolve o s).state).2.cpu :=
  .ofEq (by simp)

/-! The shapes of the instructions. -/

theorem execImplied_keeps {op : State → State} (hop : ∀ u, RegistersKept m o u.cpu (op u).cpu)
    (h : execImplied n op s = .next t) : RegistersKept m o s.cpu t.cpu :=
  (hop s).finish h

theorem execRead_keeps {x : Bool} {op : Byte → State → State} (hop : ∀ b u, RegistersKept m o u.cpu (op b u).cpu)
    (h : execRead o n x op s = .next t) : RegistersKept m o s.cpu t.cpu :=
  (readOperand_keeps.trans (hop _ _)).finish h

theorem execStore_keeps {value : Cpu → Byte} (h : execStore o n value s = .next t) : RegistersKept m o s.cpu t.cpu :=
  ((RegistersKept.ofEq (resolve_cpu o s)).trans (writePlace_keeps _ _)).finish h

theorem execModify_keeps {f : Byte → Bool → Byte} {op : Byte → Byte → State → State}
    (hop : ∀ b r u, RegistersKept m o u.cpu (op b r u).cpu) (h : execModify o n f op s = .next t) :
    RegistersKept m o s.cpu t.cpu :=
  ((readOperand_keeps.trans (writePlace_keeps _ _)).trans (hop _ _ _)).finish h

theorem execNoAccess_keeps (h : execNoAccess o n s = .next t) : RegistersKept m o s.cpu t.cpu :=
  (RegistersKept.ofEq (resolve_cpu o s)).finish h

theorem execJump_keeps (hm : m.writesPc = true) (h : execJump o n s = .next t) : RegistersKept m o s.cpu t.cpu :=
  ((RegistersKept.ofEq (resolve_cpu o s)).setPc hm).finish h

theorem execBranch_keeps {b : Byte} {cond : Flags → Bool} (hm : m.writesPc = true)
    (h : execBranch b n cond s = .next t) : RegistersKept m o s.cpu t.cpu := by
  unfold execBranch at h
  simp only at h
  split at h
  · exact ((RegistersKept.refl s.cpu).setPc hm).finish h
  · exact (RegistersKept.refl s.cpu).finish h

end

/-- The meaning of every mnemonic keeps what the mnemonic is not listed for: by the shape of the meaning, from what its
operation keeps. A clause of `RegistersKept` for the operation is void where the mnemonic is listed (`rintro ⟨⟩` sees
`true = false`); elsewhere the operation writes another field of the CPU. -/
theorem meaning_keeps {m : Mnemonic} {o : Operand} {n : Nat} {s t : State} (h : meaning m o n s = .next t) :
    RegistersKept m o s.cpu t.cpu := by
  cases m
  case sta | stx | sty | sax => unfold meaning at h; exact execStore_keeps h
  case sha | shx | shy | tas => exact execNoAccess_keeps h
  case jmp => exact execJump_keeps rfl h
  case bcc | bcs | beq | bne | bmi | bpl | bvc | bvs => unfold meaning at h; exact execBranch_keeps rfl h
  case inc | dec | asl | rol | lsr | ror | slo | rla | sre | rra | dcp | isc =>
    refine execModify_keeps (fun b r u => ?_) h
    constructor <;> rintro ⟨⟩ <;> intros <;> rfl
  case lda | ldx | ldy | adc | sbc | and | ora | eor | bit | cmp | cpx | cpy | lax | anc | alr | arr | axs | nop | las | ane
      | lxa =>
    refine execRead_keeps (fun b u => ?_) h
    constructor <;> rintro ⟨⟩ <;> intros <;> rfl
  case jsr | brk | rts | rti | pha | php | pla | plp =>
    refine execImplied_keeps (fun u => ?_) h
    constructor <;> rintro ⟨⟩ <;> intros <;>
      simp [opJsr, opBrk, opRts, trapEntry, trapReturn, opPha, opPhp, opPla, opPlp]
  case clc | sec | cli | sei | cld | sed | clv | tax | tay | txa | tya | tsx | txs | inx | iny | dex | dey | jam =>
    refine execImplied_keeps (fun u => ?_) h
    constructor <;> rintro ⟨⟩ <;> intros <;> rfl

/-- Settles O19: every instruction is its mnemonic's meaning, which keeps the registers it is not listed for. -/
theorem registerFrame : Obligations.RegisterFrame := by
  intro i s t h
  have goes := exec_goes i s
  obtain ⟨hc, hz, hn, hi, hd, hv, ha, hx, hy, hs, hpc⟩ := meaning_keeps ((exec_meaning i s).symm.trans h)
  exact ⟨hc, fun w => ⟨hz w, hn w⟩, hi, hd, hv, ha, hx, hy, hs, hpc, goes.inputs t h, goes.outputs t h, goes.params t h⟩

/-! The Decimal flag has no effect (R26): reads, writes and modes do not see it, and an operation that does not
push P carries it along. -/

/-- The state with the Decimal flag `d`. -/
def State.withD (d : Bool) (s : State) : State := s.mapP fun p => { p with d := d }

theorem State.withD_onCpu (d : Bool) (s : State) : s.withD d = onCpu { s.cpu with p := { s.cpu.p with d := d } } s := rfl

/-! The buses, the stack and the operand. -/

section
variable (d : Bool) (s : State)

theorem memRead_withD (a : Word) : memRead a (s.withD d) = ((memRead a s).1, (memRead a s).2.withD d) := by
  simp only [State.withD_onCpu, memRead_onCpu, memRead_cpu]

theorem memWrite_withD (a : Word) (v : Byte) : memWrite a v (s.withD d) = (memWrite a v s).withD d := by
  simp only [State.withD_onCpu, memWrite_onCpu, memWrite_cpu]

theorem push_withD (v : Byte) : push v (s.withD d) = (push v s).withD d :=
  congrArg (fun t => t.setS (t.cpu.s - 1)) (memWrite_withD d s (stackAddr s.cpu.s) v)

theorem pop_withD : pop (s.withD d) = ((pop s).1, (pop s).2.withD d) :=
  memRead_withD d (s.setS (s.cpu.s + 1)) _

theorem resolve_withD (o : Operand) : resolve o (s.withD d) =
    { place := (resolve o s).place, extra := (resolve o s).extra, state := (resolve o s).state.withD d } := by
  cases o with
  | ind w => simp only [resolve, jumpPointer, memRead_withD]
  | izx b => simp only [resolve, zeroPagePointer, memRead_withD]; rfl
  | izy b => simp only [resolve, zeroPagePointer, memRead_withD]; rfl
  | _ => rfl

theorem readPlace_withD (p : Place) : readPlace p (s.withD d) = ((readPlace p s).1, (readPlace p s).2.withD d) := by
  cases p with
  | mem ea => exact memRead_withD d s ea
  | _ => rfl

theorem writePlace_withD (p : Place) (v : Byte) : writePlace p v (s.withD d) = (writePlace p v s).withD d := by
  cases p with
  | mem ea => exact memWrite_withD d s ea v
  | _ => rfl

/-! The stack instructions that do not push P. -/

theorem opJsr_withD (target : Word) : opJsr target (s.withD d) = (opJsr target s).withD d := by
  simp only [opJsr, pushWord, push_withD]; rfl

theorem opRts_withD : opRts (s.withD d) = (opRts s).withD d := by simp only [opRts, pop_withD]; rfl

theorem opPla_withD : opPla (s.withD d) = (opPla s).withD d := by simp only [opPla, pop_withD]; rfl

/-- PLP replaces P whole, so nothing is left of the Decimal flag before it. -/
theorem opPlp_withD : opPlp (s.withD d) = opPlp s := by simp only [opPlp, pop_withD]; rfl

/-- RTI replaces P whole, as PLP does. -/
theorem trapReturn_withD : trapReturn (s.withD d) = trapReturn s := by simp only [trapReturn, pop_withD]; rfl

end

/-! The shapes of the instructions. -/

/-- Whatever the Decimal flag is before, the operation differs in the Decimal flag at most. -/
def IgnoresD (op : State → State) : Prop := ∀ d s, ∃ e, op (s.withD d) = (op s).withD e

/-- Whatever the Decimal flag is before, the instruction goes to a state that differs in the Decimal flag at most. -/
def MeaningIgnoresD (run : State → Result) : Prop :=
  ∀ d s t, run s = .next t → ∃ e, run (s.withD d) = .next (t.withD e)

section
variable {o : Operand} {n : Nat}

/-- The end of an instruction carries the Decimal flag along. -/
theorem finish_withD {s t : State} (e : Bool) (h : finish n s = .next t) : finish n (s.withD e) = .next (t.withD e) := by
  injection h with h
  subst h
  rfl

/-- An operation that ignores the Decimal flag, then the end of the instruction. -/
theorem finish_ignoresD {op : State → State} {s t : State} (hop : IgnoresD op) (d : Bool)
    (h : finish n (op s) = .next t) : ∃ e, finish n (op (s.withD d)) = .next (t.withD e) := by
  obtain ⟨e, he⟩ := hop d s
  exact ⟨e, he ▸ finish_withD e h⟩

theorem execImplied_ignoresD {op : State → State} (hop : IgnoresD op) : MeaningIgnoresD (execImplied n op) :=
  fun d _ _ h => finish_ignoresD hop d h

theorem execRead_ignoresD {x : Bool} {op : Byte → State → State} (hop : ∀ b, IgnoresD (op b)) :
    MeaningIgnoresD (execRead o n x op) := by
  intro d s t h
  simp only [execRead, resolve_withD, readPlace_withD]
  exact finish_ignoresD (hop _) d h

theorem execStore_ignoresD {value : Cpu → Byte} (hv : ∀ d (s : State), value (s.withD d).cpu = value s.cpu) :
    MeaningIgnoresD (execStore o n value) := by
  intro d s t h
  refine ⟨d, ?_⟩
  simp only [execStore, resolve_withD, writePlace_withD, hv]
  exact finish_withD d h

theorem execModify_ignoresD {f : Byte → Bool → Byte} {op : Byte → Byte → State → State} (hop : ∀ b r, IgnoresD (op b r)) :
    MeaningIgnoresD (execModify o n f op) := by
  intro d s t h
  have carry (u : State) : (u.withD d).cpu.p.c = u.cpu.p.c := rfl
  simp only [execModify, resolve_withD, readPlace_withD, carry, writePlace_withD]
  exact finish_ignoresD (hop _ _) d h

theorem execNoAccess_ignoresD : MeaningIgnoresD (execNoAccess o n) := by
  intro d s t h
  refine ⟨d, ?_⟩
  simp only [execNoAccess, resolve_withD]
  exact finish_withD d h

theorem execJump_ignoresD : MeaningIgnoresD (execJump o n) := by
  intro d s t h
  refine ⟨d, ?_⟩
  simp only [execJump, resolve_withD]
  exact finish_withD d h

theorem execBranch_ignoresD {b : Byte} {cond : Flags → Bool} (hc : ∀ p d, cond { p with d := d } = cond p) :
    MeaningIgnoresD (execBranch b n cond) := by
  intro d s t h
  refine ⟨d, ?_⟩
  have taken : cond (s.withD d).cpu.p = cond s.cpu.p := hc _ _
  unfold execBranch at h ⊢
  simp only [taken] at h ⊢
  split at h
  next c => rw [if_pos c]; exact finish_withD d h
  next c => rw [if_neg c]; exact finish_withD d h

end

/-- The meaning of every mnemonic but PHP and BRK, the two that push P, ignores the Decimal flag. -/
theorem meaning_ignoresD {m : Mnemonic} (o : Operand) (n : Nat) (hphp : m ≠ .php) (hbrk : m ≠ .brk) :
    MeaningIgnoresD (meaning m o n) := by
  cases m
  case php => exact absurd rfl hphp
  case brk => exact absurd rfl hbrk
  case sta | stx | sty | sax => unfold meaning; exact execStore_ignoresD fun _ _ => rfl
  case sha | shx | shy | tas => exact execNoAccess_ignoresD
  case jmp => exact execJump_ignoresD
  case bcc | bcs | beq | bne | bmi | bpl | bvc | bvs => unfold meaning; exact execBranch_ignoresD fun _ _ => rfl
  case inc | dec | asl | rol | lsr | ror | slo | rla | sre | rra | dcp | isc =>
    exact execModify_ignoresD fun _ _ d _ => ⟨d, rfl⟩
  case lda | ldx | ldy | adc | sbc | and | ora | eor | bit | cmp | cpx | cpy | lax | anc | alr | arr | axs | nop | las | ane
      | lxa => exact execRead_ignoresD fun _ d _ => ⟨d, rfl⟩
  case cld => exact execImplied_ignoresD fun _ _ => ⟨false, rfl⟩
  case sed => exact execImplied_ignoresD fun _ _ => ⟨true, rfl⟩
  case clc | sec | cli | sei | clv | tax | tay | txa | tya | tsx | txs | inx | iny | dex | dey | jam =>
    exact execImplied_ignoresD fun d _ => ⟨d, rfl⟩
  case jsr => exact execImplied_ignoresD fun d s => ⟨d, opJsr_withD d s _⟩
  case rts => exact execImplied_ignoresD fun d s => ⟨d, opRts_withD d s⟩
  case pha => exact execImplied_ignoresD fun d s => ⟨d, push_withD d s s.cpu.a⟩
  case pla => exact execImplied_ignoresD fun d s => ⟨d, opPla_withD d s⟩
  case plp => exact execImplied_ignoresD fun d s => ⟨(opPlp s).cpu.p.d, opPlp_withD d s⟩
  case rti => exact execImplied_ignoresD fun d s => ⟨(trapReturn s).cpu.p.d, trapReturn_withD d s⟩

/-- Settles O23: the two states of R26 are a state and `withD` of it. -/
theorem decimalHasNoEffect : Obligations.DecimalHasNoEffect := by
  intro i s t d hphp hbrk h
  obtain ⟨e, he⟩ := meaning_ignoresD i.operand i.baseCycles hphp hbrk d s t ((exec_meaning i s).symm.trans h)
  exact ⟨e, (exec_meaning i _).trans he⟩

end Sys2Proof.Machine
end

section
/-! SUPPORT. The two buses address by address: the CPU bus (O24 to O28) and the PPU bus (O29). -/

namespace Sys2Proof.Machine

/-! A CPU read (R86): the cartridge first, then one lemma per window of the address map. -/

theorem memRead_claimed {a : Word} {b : Byte} {s : State} (h : (s.cart.cpuRead a).1 = some b) :
    memRead a s = (b, s.setCart (s.cart.cpuRead a).2) := by simp only [memRead, h]

theorem memRead_declined {a : Word} {s : State} (h : (s.cart.cpuRead a).1 = none) :
    memRead a s = memReadInside a (s.setCart (s.cart.cpuRead a).2) := by simp only [memRead, h]

theorem memReadInside_work {a : Word} (s : State) (h : a.toNat < 0x2000) : memReadInside a s = (s.workByte a, s) :=
  if_pos h

/-- The number of a port, in the form the claims give it (R88). -/
theorem portNumber_eq (a : Word) : a.extractLsb' 0 3 = BitVec.ofNat 3 (a.toNat % 8) :=
  BitVec.eq_of_toNat_eq (by simp)

theorem memReadInside_port {a : Word} (s : State) (h : 0x2000 ≤ a.toNat) (k : a.toNat < 0x4000) :
    memReadInside a s = portRead (BitVec.ofNat 3 (a.toNat % 8)) s := by
  rw [← portNumber_eq, memReadInside, if_neg (by omega), if_pos k]

theorem memReadInside_controller0 (s : State) : memReadInside 0x4016 s = controllerRead0 s := rfl

theorem memReadInside_controller1 (s : State) : memReadInside 0x4017 s = controllerRead1 s := rfl

theorem memReadInside_openBus {a : Word} (s : State) (h : 0x4000 ≤ a.toNat) (h0 : a ≠ 0x4016) (h1 : a ≠ 0x4017) :
    memReadInside a s = (0x00, s) := by
  rw [memReadInside, if_neg (by omega), if_neg (by omega), if_neg h0, if_neg h1, Config.openBusValue]

/-! A controller shift register as a number (R90). -/

/-- The bit that a read gives after `k` shifts is bit `7 - k`, and 0 once all eight are shifted out. -/
theorem controllerBit_shiftLeft (c : Byte) (k : Nat) :
    controllerBit (c <<< k) = if k < 8 then BitVec.ofNat 8 (c.toNat / 2 ^ (7 - k) % 2) else 0 := by
  have bit : (c <<< k).getLsbD 7 = (decide (k < 8) && c.toNat.testBit (7 - k)) := by
    rw [BitVec.getLsbD_shiftLeft, ← BitVec.testBit_toNat]
    congr 1
    simp only [decide_eq_decide, Nat.reduceLT, decide_true, Bool.true_and, ← decide_not]
    omega
  refine BitVec.eq_of_toNat_eq ?_
  simp only [controllerBit, bit, BitVec.toNat_setWidth, BitVec.toNat_ofBool]
  split
  next h => simp [h, Nat.toNat_testBit]
  next h => simp [h]

theorem controllerBit_eq (c : Byte) : controllerBit c = BitVec.ofNat 8 (c.toNat / 128) := by
  have top : c.toNat / 128 % 2 = c.toNat / 128 := by omega
  simpa [top] using controllerBit_shiftLeft c 0

theorem shiftLeft_one_eq (c : Byte) : c <<< 1 = BitVec.ofNat 8 (2 * c.toNat) :=
  BitVec.eq_of_toNat_eq (by simp [Nat.shiftLeft_eq, Nat.mul_comm])

/-- Settles O24: the cartridge's answer, else the window the address lies in. -/
theorem busReadMap : Obligations.BusReadMap := by
  intro a s r u
  refine ⟨fun b => memRead_claimed, fun declined => ?_⟩
  have inside : memRead a s = memReadInside a u := memRead_declined declined
  rw [inside]
  refine ⟨fun h => ?work, fun h k => ?port, fun h => ?controller0, fun h => ?controller1, fun h h0 h1 => ?openBus⟩
  case work => exact memReadInside_work u (by omega)
  case port => exact memReadInside_port u h (by omega)
  case controller0 => rw [h, memReadInside_controller0, ← controllerBit_eq, ← shiftLeft_one_eq]; rfl
  case controller1 => rw [h, memReadInside_controller1, ← controllerBit_eq, ← shiftLeft_one_eq]; rfl
  case openBus => exact memReadInside_openBus u h h0 h1

/-! A CPU write (R87), in the same order. -/

theorem memWrite_claimed {a : Word} {v : Byte} {s : State} (h : (s.cart.cpuWrite a v).1 = true) :
    memWrite a v s = s.setCart (s.cart.cpuWrite a v).2 := if_pos h

theorem memWrite_declined {a : Word} {v : Byte} {s : State} (h : (s.cart.cpuWrite a v).1 = false) :
    memWrite a v s = memWriteInside a v (s.setCart (s.cart.cpuWrite a v).2) := if_neg (by simp [h])

theorem memWriteInside_work {a : Word} (v : Byte) (s : State) (h : a.toNat < 0x2000) :
    memWriteInside a v s = s.setWork a v := if_pos h

theorem memWriteInside_port {a : Word} (v : Byte) (s : State) (h : 0x2000 ≤ a.toNat) (k : a.toNat < 0x4000) :
    memWriteInside a v s = portWrite (BitVec.ofNat 3 (a.toNat % 8)) v s := by
  rw [← portNumber_eq, memWriteInside, if_neg (by omega), if_pos k]

/-- The sound registers lie above the PPU ports (R82). -/
theorem isSoundWrite_iff (a : Word) :
    isSoundWrite a = true ↔ (0x4000 ≤ a.toNat ∧ a.toNat ≤ 0x4013) ∨ a = 0x4015 ∨ a = 0x4017 := by
  simp [isSoundWrite, or_assoc]

theorem memWriteInside_sound {a : Word} (v : Byte) (s : State) (h : isSoundWrite a = true) :
    memWriteInside a v s = s.mapOrch fun o => { o with soundQueue := o.soundQueue ++ [(a, v)] } := by
  have above : 0x4000 ≤ a.toNat := by
    obtain h | rfl | rfl := (isSoundWrite_iff a).mp h
    · exact h.1
    · decide
    · decide
  rw [memWriteInside, if_neg (by omega), if_neg (by omega), if_pos h]

theorem memWriteInside_dma (v : Byte) (s : State) : memWriteInside 0x4014 v s = dmaStart v s := rfl

theorem memWriteInside_latch (v : Byte) (s : State) : memWriteInside 0x4016 v s = controllerLatch s := rfl

theorem memWriteInside_ignored {a : Word} (v : Byte) (s : State) (h : 0x4000 ≤ a.toNat) (hs : ¬ isSoundWrite a = true)
    (hd : a ≠ 0x4014) (hl : a ≠ 0x4016) : memWriteInside a v s = s := by
  rw [memWriteInside, if_neg (by omega), if_neg (by omega), if_neg hs, if_neg hd, if_neg hl]

/-- Settles O25: the cartridge's claim, else the window the address lies in. -/
theorem busWriteMap : Obligations.BusWriteMap := by
  intro a v s r u sound
  refine ⟨memWrite_claimed, fun declined => ?_⟩
  have inside : memWrite a v s = memWriteInside a v u := memWrite_declined declined
  have sound_iff : isSoundWrite a = true ↔ sound := isSoundWrite_iff a
  rw [inside]
  refine ⟨fun h => ?work, fun h k => ?port, fun h => ?sound, fun h => ?dma, fun h => ?latch, fun h hs hd hl => ?ignored⟩
  case work => exact memWriteInside_work v u (by omega)
  case port => exact memWriteInside_port v u h (by omega)
  case sound => exact memWriteInside_sound v u (sound_iff.mpr h)
  case dma => rw [h, memWriteInside_dma]; rfl
  case latch => rw [h, memWriteInside_latch]; rfl
  case ignored => exact memWriteInside_ignored v u h (mt sound_iff.mp hs) hd hl

/-! An address the cartridge does not claim. -/

theorem unclaimed.memRead_inside {a : Word} {s : State} (h : unclaimed a s) : memRead a s = memReadInside a s := by
  obtain ⟨concrete, reads, -⟩ := h
  have answer : s.cart.cpuRead a = (none, s.cart) := by rw [Cart.cpuRead_concrete concrete, reads]
  rw [memRead_declined (by rw [answer]), answer, State.setCart_self]

theorem unclaimed.memWrite_inside {a : Word} {s : State} (v : Byte) (h : unclaimed a s) :
    memWrite a v s = memWriteInside a v s := by
  obtain ⟨concrete, -, writes⟩ := h
  have answer : s.cart.cpuWrite a v = (false, s.cart) := by simp [Cart.cpuWrite, concrete, writes]
  rw [memWrite_declined (by rw [answer]), answer, State.setCart_self]

theorem unclaimed.ofCart {a : Word} {s t : State} (h : unclaimed a s) (e : t.cart = s.cart) : unclaimed a t := by
  unfold unclaimed; rwa [e]

theorem unclaimed.memRead_work {a : Word} {s : State} (h : unclaimed a s) (ha : a.toNat < 0x2000) :
    (memRead a s).1 = s.workByte a := by rw [h.memRead_inside, memReadInside_work s ha]

theorem unclaimed.memWrite_work {a : Word} {s : State} (v : Byte) (h : unclaimed a s) (ha : a.toNat < 0x2000) :
    memWrite a v s = s.setWork a v := by rw [h.memWrite_inside, memWriteInside_work v s ha]

/-- A byte of work memory after a store (R83). -/
theorem State.workByte_setWork (a b : Word) (v : Byte) (s : State) :
    (s.setWork a v).workByte b = if a.toNat % 2048 = b.toNat % 2048 then v else s.workByte b := by
  simp only [State.workByte, State.setWork_orch, Memory.read_put, eq_comm]

/-- Settles O26: in the window both accesses go to work memory, at the address modulo 0x800. -/
theorem workMemoryMirrors : Obligations.WorkMemoryMirrors := by
  intro a b v s ha hb claimA claimB
  rw [claimA.memWrite_work v ha, claimB.memRead_work hb, (claimB.ofCart (State.setWork_cart a v s)).memRead_work hb,
    State.workByte_setWork]

/-- Settles O27: what one read can change, that no CPU register is of it, and that a plain read changes nothing. -/
theorem busReadEffects : Obligations.BusReadEffects :=
  fun a s => ⟨memRead_frame a s, memRead_cpu a s, memRead_plain⟩

/-! The controller protocol (R90). -/

/-- Reads that give the top bit of a shift register and shift it by one give its bits in order, from the top down. -/
theorem controllerReads_get {read : State → Byte × State} {next : State → State} {shift : State → Byte}
    {ok : State → Prop} (gives : ∀ s, ok s → read s = (controllerBit (shift s), next s))
    (shifts : ∀ s, shift (next s) = shift s <<< 1) (keeps : ∀ s, ok s → ok (next s)) {n k : Nat} {s : State} (hs : ok s)
    (hk : k < n) : (controllerReads read n s).1[k]? = some (controllerBit (shift s <<< k)) := by
  induction n generalizing k s with
  | zero => exact absurd hk (Nat.not_lt_zero k)
  | succ n ih =>
    cases k with
    | zero => simp [controllerReads, gives s hs]
    | succ k =>
      have later := ih (keeps s hs) (Nat.lt_of_succ_lt_succ hk)
      rw [shifts, ← BitVec.shiftLeft_add, Nat.add_comm] at later
      simpa [controllerReads, gives s hs] using later

theorem controllerReads_port0 {n k : Nat} {s : State} (h : unclaimed 0x4016 s) (hk : k < n) :
    (controllerReads (memRead 0x4016) n s).1[k]? = some (controllerBit (s.orch.shift0 <<< k)) :=
  controllerReads_get (shift := (·.orch.shift0)) (next := fun t => (controllerRead0 t).2)
    (fun _ => unclaimed.memRead_inside) (fun _ => rfl) (fun _ ht => ht.ofCart rfl) h hk

theorem controllerReads_port1 {n k : Nat} {s : State} (h : unclaimed 0x4017 s) (hk : k < n) :
    (controllerReads (memRead 0x4017) n s).1[k]? = some (controllerBit (s.orch.shift1 <<< k)) :=
  controllerReads_get (shift := (·.orch.shift1)) (next := fun t => (controllerRead1 t).2)
    (fun _ => unclaimed.memRead_inside) (fun _ => rfl) (fun _ ht => ht.ofCart rfl) h hk

/-- Settles O28: the write latches both snapshots, and the reads shift them out. -/
theorem controllerProtocol : Obligations.ControllerProtocol := by
  intro d n k s claim0 claim1 hk t bit
  have latched : t = controllerLatch s := claim0.memWrite_inside d
  have cart : t.cart = s.cart := by rw [latched]; rfl
  rw [controllerReads_port0 (claim0.ofCart cart) hk, controllerReads_port1 (claim1.ofCart cart) hk,
    controllerBit_shiftLeft, controllerBit_shiftLeft, latched]
  exact ⟨rfl, rfl⟩

/-! The PPU bus (R100, R101), for the 14 bits `a` of an address. -/

section
variable {addr : Word} {a : BitVec 14} {v : Byte} {s : State} (low : addr.setWidth 14 = a)
include low

theorem ppuRead_claimed {b : Byte} (h : a.toNat < 0x3F00) (claim : (s.cart.ppuRead a).1 = some b) :
    ppuRead addr s = (b, s.setCart (s.cart.ppuRead a).2) := by
  simp only [ppuRead, low, ppuReadClaim, if_pos h, claim]

theorem ppuRead_declined (h : a.toNat < 0x3F00) (claim : (s.cart.ppuRead a).1 = none) :
    ppuRead addr s = ppuReadInside a (s.setCart (s.cart.ppuRead a).2) := by
  simp only [ppuRead, low, ppuReadClaim, if_pos h, claim]

theorem ppuWrite_claimed (h : a.toNat < 0x3F00) (claim : (s.cart.ppuWrite a v).1 = true) :
    ppuWrite addr v s = s.setCart (s.cart.ppuWrite a v).2 := by
  simp only [ppuWrite, low, ppuWriteClaim, if_pos h, claim, if_true]

theorem ppuWrite_declined (h : a.toNat < 0x3F00) (claim : (s.cart.ppuWrite a v).1 = false) :
    ppuWrite addr v s = ppuWriteInside a v (s.setCart (s.cart.ppuWrite a v).2) := by
  simp only [ppuWrite, low, ppuWriteClaim, if_pos h, claim, Bool.false_eq_true, if_false]

/-- A palette write stores the whole byte and asks no cartridge (R104, D31). -/
theorem ppuWrite_palette (h : 0x3F00 ≤ a.toNat) :
    ppuWrite addr v s = s.mapPpu fun p => { p with palette := Memory.put p.palette (palIndex a) v } := by
  simp only [ppuWrite, low, ppuWriteClaim_palette v s.cart h, Bool.false_eq_true, if_false, State.setCart_self]
  rw [ppuWriteInside, if_neg (by omega), if_neg (by omega)]

end

section
variable {a : BitVec 14} (v : Byte) (s : State)

theorem ppuReadInside_pattern (h : a.toNat < 0x2000) :
    ppuReadInside a s = (Memory.read Config.initPattern s.ppu.pattern a.toNat, s) := if_pos h

theorem ppuReadInside_nametable (h : 0x2000 ≤ a.toNat) (k : a.toNat < 0x3F00) :
    ppuReadInside a s = (Memory.read Config.initNametable s.ppu.nametable (ntIndex a s.cart).1,
      s.setCart (ntIndex a s.cart).2) := by
  rw [ppuReadInside, if_neg (by omega), if_pos k]

theorem ppuWriteInside_pattern (h : a.toNat < 0x2000) :
    ppuWriteInside a v s = s.mapPpu fun p => { p with pattern := Memory.put p.pattern a.toNat v } := if_pos h

theorem ppuWriteInside_nametable (h : 0x2000 ≤ a.toNat) (k : a.toNat < 0x3F00) :
    ppuWriteInside a v s = (s.setCart (ntIndex a s.cart).2).mapPpu fun p =>
      { p with nametable := Memory.put p.nametable (ntIndex a s.cart).1 v } := by
  rw [ppuWriteInside, if_neg (by omega), if_pos k]

end

/-- The four mirrors of the palette are 16 below themselves (R104). -/
theorem palIndex_eq (a : BitVec 14) :
    palIndex a = if a.toNat % 32 = 16 ∨ a.toNat % 32 = 20 ∨ a.toNat % 32 = 24 ∨ a.toNat % 32 = 28
      then a.toNat % 32 - 16 else a.toNat % 32 := by
  simp only [palIndex]
  split_ifs <;> omega

/-! The index of a nametable byte (R103), by the mirroring of a concrete cartridge. -/

/-- Bit `i` of the logical table `k` is bit `10 + i` of the address. -/
theorem table_bit (a : BitVec 14) (i : Nat) (h : i < 2) :
    ((a.extractLsb' 10 2).getLsbD i).toNat = a.toNat / 2 ^ (10 + i) % 2 := by
  rw [BitVec.getLsbD_extractLsb', decide_eq_true h, Bool.true_and, ← BitVec.testBit_toNat, Nat.toNat_testBit]

theorem table_toNat (a : BitVec 14) : (a.extractLsb' 10 2).toNat = a.toNat / 1024 % 4 := extract_toNat a 10 2

theorem Mirroring.bank_custom (t0 t1 t2 t3 : Bool) (k : BitVec 2) :
    Mirroring.bank (.custom t0 t1 t2 t3) k = [t0, t1, t2, t3].getD k.toNat false := by
  revert t0 t1 t2 t3 k; decide

section
variable {c : Cart} (a : BitVec 14) (concrete : c.oracle = false)
include concrete

theorem ntIndex_concrete :
    ntIndex a c = ((c.mirroring.bank (a.extractLsb' 10 2)).toNat * 1024 + a.toNat % 1024, c) := by
  simp only [ntIndex, Cart.bank, concrete, Bool.false_eq_true, if_false]
  cases c.mirroring.bank (a.extractLsb' 10 2) <;> simp

theorem ntIndex_vertical (h : c.mirroring = .vertical) : ntIndex a c = (a.toNat % 2048, c) := by
  rw [ntIndex_concrete a concrete, h, Mirroring.bank, table_bit a 0 (by decide)]
  congr 1
  omega

theorem ntIndex_horizontal (h : c.mirroring = .horizontal) :
    ntIndex a c = (a.toNat / 2048 % 2 * 1024 + a.toNat % 1024, c) := by
  rw [ntIndex_concrete a concrete, h, Mirroring.bank, table_bit a 1 (by decide)]
  rfl

theorem ntIndex_custom {t0 t1 t2 t3 : Bool} (h : c.mirroring = .custom t0 t1 t2 t3) :
    ntIndex a c = (([t0, t1, t2, t3].getD (a.toNat / 1024 % 4) false).toNat * 1024 + a.toNat % 1024, c) := by
  rw [ntIndex_concrete a concrete, h, Mirroring.bank_custom, table_toNat]

end

/-- Settles O29: reads, writes and the nametable index, each by the window or the mirroring. -/
theorem ppuBusMap : Obligations.PpuBusMap := by
  intro addr v s a i j
  have low : addr.setWidth 14 = a := (BitVec.ofNat_toNat 14 addr).symm
  have index : palIndex a = j := palIndex_eq a
  refine ⟨⟨fun h b => ppuRead_claimed low h, fun declined => ⟨fun h => ?readPattern, fun h k => ?readNametable⟩,
      fun h => ?readPalette⟩,
    ⟨ppuWrite_claimed low, fun declined => ⟨fun h => ?writePattern, fun h k => ?writeNametable⟩,
      fun h => ?writePalette⟩,
    fun concrete => ⟨ntIndex_vertical a concrete, ntIndex_horizontal a concrete,
      fun t0 t1 t2 t3 => ntIndex_custom a concrete⟩⟩
  case readPattern => exact (ppuRead_declined low (by omega) declined).trans (ppuReadInside_pattern _ (by omega))
  case readNametable => exact (ppuRead_declined low (by omega) declined).trans (ppuReadInside_nametable _ h (by omega))
  case readPalette => rw [ppuRead_palette s (low ▸ h), low, index]; rfl
  case writePattern => exact (ppuWrite_declined low (by omega) declined).trans (ppuWriteInside_pattern v _ (by omega))
  case writeNametable =>
    exact (ppuWrite_declined low (by omega) declined).trans (ppuWriteInside_nametable v _ h (by omega))
  case writePalette => rw [ppuWrite_palette low h, index]; rfl

end Sys2Proof.Machine
end

section
/-! SUPPORT. The decoder and the encoder are inverse to each other (R140, R144, R146): both read one entry of the opcode
matrix, applied to one operand. -/

namespace Sys2Proof

/-! An entry applied to an operand: `b` where its format has one operand byte, `w` where it has two. -/

/-- The instruction an entry makes of an operand (R140). -/
def Entry.instr (b : Byte) (w : Word) : Entry → Instr
  | .f1 i => i
  | .f2 make => make b
  | .f3 make => make w

/-- The operand bytes from which an entry reads that operand, low byte first (R140, R92). -/
def Entry.operandBytes (b : Byte) (w : Word) : Entry → List Byte
  | .f1 _ => []
  | .f2 _ => [b]
  | .f3 _ => [lo w, hi w]

/-- The operand of a mode that has one operand byte. -/
def Operand.byte : Operand → Byte
  | .imm b | .zp b | .zpx b | .zpy b | .izx b | .izy b | .rel b => b
  | .imp | .acc | .abs _ | .ind _ | .abx _ | .aby _ => 0

/-- The operand of a mode that has two operand bytes. -/
def Operand.word : Operand → Word
  | .abs w | .ind w | .abx w | .aby w => w
  | .imp | .acc | .imm _ | .zp _ | .zpx _ | .zpy _ | .izx _ | .izy _ | .rel _ => 0

/-! The opcode matrix against the rows of the instructions, in both directions. -/

/-- Every instruction is made, from its own operand, by the entry its opcode selects (R144). The opcode is first reduced to
its number, free of the operand: the lookup divides it, and `rfl` divides only closed numbers. -/
theorem instr_opcodeEntry (i : Instr) :
    (opcodeEntry i.opcode).instr i.operand.byte i.operand.word = i := by
  cases i <;> dsimp only [Instr.opcode, Instr.row] <;> rfl

/-- What the entry of an opcode makes is encoded as that opcode, with the operand it was made of (R144, R146). -/
theorem encode_instr (op b : Byte) (w : Word) :
    encode ((opcodeEntry op).instr b w) = op :: (opcodeEntry op).operandBytes b w := by
  obtain ⟨n, hn, rfl⟩ : ∃ n < 256, op = BitVec.ofNat 8 n := ⟨op.toNat, op.isLt, by simp⟩
  interval_cases n <;> rfl

/-! The decoder reads one entry. -/

/-- The decoder finds an instruction exactly where the operand bytes of the opcode's entry follow (R140). -/
theorem decode_cons_ok_iff {op : Byte} {bytes rest : List Byte} {i : Instr} :
    decode (op :: bytes) = .ok (i, rest) ↔
      ∃ b w, i = (opcodeEntry op).instr b w ∧ bytes = (opcodeEntry op).operandBytes b w ++ rest := by
  cases he : opcodeEntry op with
  | f1 j => simp [decode, he, Entry.instr, Entry.operandBytes, eq_comm]
  | f2 make => cases bytes <;> simp [decode, he, Entry.instr, Entry.operandBytes, eq_comm]
  | f3 make =>
    match bytes with
    | [] => simp [decode, he, Entry.operandBytes]
    | [_] => simp [decode, he, Entry.operandBytes]
    | l :: h :: r =>
      simp only [decode, he, Entry.instr, Entry.operandBytes]
      constructor
      · rintro ⟨⟩
        exact ⟨0, wordOf h l, rfl, by simp⟩
      · rintro ⟨-, w, rfl, hbytes⟩
        obtain ⟨rfl, rfl, rfl⟩ : l = lo w ∧ h = hi w ∧ r = rest := by simpa using hbytes
        simp

/-- Three bytes are enough for the operand of every entry (R140). -/
theorem exists_operandBytes (e : Entry) (b c : Byte) (rest : List Byte) :
    ∃ b' w r, b :: c :: rest = e.operandBytes b' w ++ r := by
  cases e with
  | f1 _ => exact ⟨0, 0, b :: c :: rest, rfl⟩
  | f2 _ => exact ⟨b, 0, c :: rest, rfl⟩
  | f3 _ => exact ⟨0, wordOf c b, rest, by simp [Entry.operandBytes]⟩

/-! The obligations. -/

/-- Settles O55: the opcode's entry makes the instruction of its operand, and its operand bytes are those encoded. -/
theorem decodeEncode : Obligations.DecodeEncode := by
  intro i rest
  have made := instr_opcodeEntry i
  have encoded := encode_instr i.opcode i.operand.byte i.operand.word
  rw [made] at encoded
  rw [encoded, List.cons_append, decode_cons_ok_iff]
  exact ⟨_, _, made.symm, rfl⟩

/-- Settles O56: a decoded instruction is its entry's, so its encoding is the bytes the entry read; and every entry reads
at most two operand bytes. -/
theorem encodeDecode : Obligations.EncodeDecode := by
  refine ⟨fun bytes rest i h => ?_, fun op b c rest => ?_⟩
  · cases bytes with
    | nil => cases h
    | cons op bytes =>
      obtain ⟨b, w, rfl, rfl⟩ := decode_cons_ok_iff.mp h
      rw [encode_instr, List.cons_append]
  · obtain ⟨b', w, r, enough⟩ := exists_operandBytes (opcodeEntry op) b c rest
    exact ⟨_, r, decode_cons_ok_iff.mpr ⟨b', w, rfl, enough⟩⟩

/-- Settles O57: the decoder evaluates on each of the closed words. -/
theorem decodeSomeWords : Obligations.DecodeSomeWords := by
  unfold Obligations.DecodeSomeWords
  and_intros <;> rfl

end Sys2Proof
end

section
/-! SUPPORT. The addressing modes (O17), the cost of an instruction (O18), and the step that runs the instruction at PC
(O45). -/

namespace Sys2Proof.Machine

/-! The addresses of the modes as numbers (R173 to R184). -/

theorem wordOf_toNat (h l : Byte) : (wordOf h l).toNat = h.toNat * 256 + l.toNat := append_toNat h l

theorem page_toNat (w : Word) : (page w).toNat = w.toNat / 256 := by
  have range := w.isLt
  rw [page, hi, extract_toNat]
  omega

theorem zeroPage_toNat (b : Byte) : (zeroPage b).toNat = b.toNat := by simp [zeroPage, wordOf_toNat]

/-- A zero-page address is its byte, as a number (R143). -/
theorem zeroPage_eq {b : Byte} {n : Nat} (h : b.toNat = n) : zeroPage b = BitVec.ofNat 16 n := by
  rw [← h, ← zeroPage_toNat, BitVec.ofNat_toNat, BitVec.setWidth_eq]

/-- An indexed address is the sum, modulo 2^16 (R182 to R184). -/
theorem indexed_eq (w : Word) (k : Byte) : w + zext16 k = BitVec.ofNat 16 (w.toNat + k.toNat) :=
  BitVec.eq_of_toNat_eq (by simp [zext16])

/-- The index crosses a page exactly where the low bytes give a carry (R182 to R184). -/
theorem page_signal_eq (w : Word) (k : Byte) :
    decide (page (w + zext16 k) ≠ page w) = decide (256 ≤ w.toNat % 256 + k.toNat) := by
  refine decide_eq_decide.mpr ?_
  have wide := w.isLt
  have narrow := k.isLt
  rw [ne_eq, ← BitVec.toNat_inj, page_toNat, page_toNat, indexed_eq, BitVec.toNat_ofNat]
  omega

/-- The place that an indexed mode names from `w` by the index `k`, and its signal (R182 to R184). -/
theorem indexedMode_eq (w : Word) (k : Byte) (s : State) :
    (⟨.mem (w + zext16 k), decide (page (w + zext16 k) ≠ page w), s⟩ : Resolved)
      = ⟨.mem (BitVec.ofNat 16 (w.toNat + k.toNat)), decide (256 ≤ w.toNat % 256 + k.toNat), s⟩ := by
  rw [page_signal_eq, indexed_eq]

/-- The pointer in zero page is read at its byte and at the next, within the page (R181, R182). -/
theorem zeroPagePointer_eq {z : Byte} {n : Nat} (hn : z.toNat = n % 256) (s : State) :
    zeroPagePointer z s =
      let l := memRead (BitVec.ofNat 16 (n % 256)) s
      let h := memRead (BitVec.ofNat 16 ((n + 1) % 256)) l.2
      (wordOf h.1 l.1, h.2) := by
  have next : (z + 1).toNat = (n + 1) % 256 := by
    rw [BitVec.toNat_add, hn]
    simp
  simp only [zeroPagePointer, zeroPage_eq hn, zeroPage_eq next]

/-- Settles O17: the zero-page modes by the byte's number, the indexed modes by the sum, and the two indirect modes by the
pointer read in zero page. -/
theorem modePlaces : Obligations.ModePlaces := by
  intro b w s x y ea
  have narrow := b.isLt
  refine ⟨rfl, rfl, rfl, ?zp, ?zpx, ?zpy, rfl, indexedMode_eq w s.cpu.x s, indexedMode_eq w s.cpu.y s, ?izx, ?izy⟩
  case zp => rw [resolve, zeroPage_eq rfl]
  case zpx => rw [resolve, zeroPage_eq (BitVec.toNat_add b s.cpu.x)]
  case zpy => rw [resolve, zeroPage_eq (BitVec.toNat_add b s.cpu.y)]
  case izx => simp only [resolve, zeroPagePointer_eq (BitVec.toNat_add b s.cpu.x)]; rfl
  case izy =>
    intro l h
    have low : (wordOf h.1 l.1).toNat % 256 = l.1.toNat := by rw [wordOf_toNat]; omega
    have pointer : zeroPagePointer b s = (wordOf h.1 l.1, h.2) := by
      rw [zeroPagePointer_eq (Nat.mod_eq_of_lt narrow).symm]
      simp only [Nat.mod_eq_of_lt narrow]
      rfl
    have index : h.2.cpu.y = s.cpu.y := by simp [h, l]
    simp only [resolve, pointer, index]
    rw [indexedMode_eq, low]

/-! The cost of an instruction (R171). -/

/-- What an instruction of mnemonic `m`, operand `o` and base cost `n` owes when it goes from `s` to a state with the
program counter `pc` (R171). -/
def owedCost (m : Mnemonic) (o : Operand) (n : Nat) (s : State) (pc : Word) : Nat :=
  n + (if m.extraOp then (resolve o s).extra.toNat else 0) +
    (if branchTaken m s.cpu.p then if page pc = page s.cpu.pc then 1 else 2 else 0)

/-- An instruction goes on and owes its cost. -/
def Owes (m : Mnemonic) (o : Operand) (n : Nat) (s : State) (r : Result) : Prop :=
  ∃ t, r = .next t ∧ t.cpu.cycles = owedCost m o n s t.cpu.pc

section
variable {m : Mnemonic} {o : Operand} {n : Nat} {s : State}

/-- A mnemonic whose `extra_op` is 0 and that is no taken branch owes the base cost. -/
theorem finish_owes_base (u : State) (hx : m.extraOp = false) (hb : branchTaken m s.cpu.p = false) :
    Owes m o n s (finish n u) := ⟨_, rfl, by simp [owedCost, hx, hb]⟩

/-- A mnemonic that reads owes one cycle more where its `extra_op` and the mode's signal are both 1. -/
theorem execRead_owes {x : Bool} {op : Byte → State → State} (hx : m.extraOp = x) (hb : branchTaken m s.cpu.p = false) :
    Owes m o n s (execRead o n x op s) := ⟨_, rfl, by cases x <;> simp [owedCost, hx, hb]⟩

/-- A branch owes one cycle more when taken, two when taken to another page (R253). -/
theorem execBranch_owes {b : Byte} {cond : Flags → Bool} (hx : m.extraOp = false)
    (hb : branchTaken m s.cpu.p = cond s.cpu.p) : Owes m o n s (execBranch b n cond s) := by
  unfold execBranch
  simp only
  split
  next taken =>
    refine ⟨_, rfl, ?_⟩
    by_cases same : page (resolve (.rel b) s).place.addr = page s.cpu.pc <;> simp [owedCost, hx, hb, taken, same]
  next skipped => exact finish_owes_base s hx (by rw [hb]; simpa using skipped)

end

/-- The meaning of every mnemonic owes the cost of R171, by the shape of the meaning. -/
theorem meaning_owes (m : Mnemonic) (o : Operand) (n : Nat) (s : State) : Owes m o n s (meaning m o n s) := by
  cases m
  case lda | ldx | ldy | adc | sbc | and | ora | eor | bit | cmp | cpx | cpy | lax | anc | alr | arr | axs | nop | las | ane
      | lxa => exact execRead_owes rfl rfl
  case bcc | bcs | beq | bne | bmi | bpl | bvc | bvs => exact execBranch_owes rfl rfl
  all_goals exact finish_owes_base _ rfl rfl

/-- Settles O18: every instruction is its mnemonic's meaning, which owes the cost; and only an indexed mode signals. -/
theorem instructionCost : Obligations.InstructionCost := by
  intro i s
  refine ⟨?_, ?_, ?_⟩
  · rw [exec_meaning]
    exact meaning_owes i.mnemonic i.operand i.baseCycles s
  · unfold modeExtra
    cases (resolve i.operand s).extra
    · exact .inl rfl
    · exact .inr rfl
  · intro signal
    unfold modeExtra at signal
    cases ho : i.operand with
    | abx w => exact .inl ⟨w, .inl rfl⟩
    | aby w => exact .inl ⟨w, .inr rfl⟩
    | izy b => exact .inr ⟨b, rfl⟩
    | _ => rw [ho] at signal; cases signal

/-! The step that runs the instruction at PC (R170, R450). -/

/-- In a CPU-rate slot without a transfer and with no cycle owed, the slot runs the instruction fetched at PC. -/
theorem cpuSlot_fetch {u t : State} (slot : u.orch.counter % 3 = 0) (idle : u.orch.dmaActive = false)
    (free : u.cpu.cycles = 0) (run : exec (fetchInstr u).1 (fetchInstr u).2 = .next t) :
    cpuSlot u = .next (soundSlot (spendCycle t)) := by
  simp [cpuSlot, isCpuSlot, slot, idle, cpuTick, free, run]

/-- Settles O45: the beginning of the tick leaves the CPU and ORCH alone, so the slot fetches what the bytes decode to. -/
theorem stepRunsDecodedInstruction : Obligations.StepRunsDecodedInstruction := by
  intro s i noReset slot idle free _ u n r decoded
  obtain ⟨-, -, -, orch, cpu⟩ := tickBegin_spec s
  obtain ⟨t, run⟩ := (exec_goes i (r.2.setPc (u.cpu.pc + BitVec.ofNat 16 n))).next
  have fetched : fetchInstr u = (i, r.2.setPc (u.cpu.pc + BitVec.ofNat 16 n)) := fetchInstr_of_decode decoded
  have ran : cpuSlot u = .next (soundSlot (spendCycle t)) :=
    cpuSlot_fetch (orch ▸ slot) (orch ▸ idle) (cpu ▸ free) (by rw [fetched]; exact run)
  refine ⟨t, run, ?_⟩
  rw [step, noReset, systemTick, ran]
  rfl

end Sys2Proof.Machine
end

section
/-! SUPPORT. What an instruction can change outside the CPU: bus reads (O20), a store (O21), pushes (O22). -/

namespace Sys2Proof.Machine

/-! The shapes of the instructions that make bus reads only. -/

/-- The end of an instruction changes only the CPU. -/
theorem finish_next {n : Nat} {s t : State} (h : finish n s = .next t) : t = onCpu t.cpu s := by
  injection h with h
  subst h
  rfl

theorem ReadFrame.finish {n : Nat} {s u t : State} (hu : ReadFrame s u) (h : Machine.finish n u = .next t) :
    ReadFrame s t := by
  rw [finish_next h]
  exact hu.withCpu _

theorem OnlyCpu.eq_onCpu {op : State → State} (h : OnlyCpu op) (s : State) : op s = onCpu (op s).cpu s := h s

theorem OnlyCpu.readFrame {op : State → State} (h : OnlyCpu op) (s : State) : ReadFrame s (op s) := by
  rw [h.eq_onCpu]
  exact (ReadFrame.refl s).withCpu _

/-- Resolving the mode and reading the operand are bus reads. -/
theorem readOperand_frame (o : Operand) (s : State) :
    ReadFrame s (readPlace (resolve o s).place (resolve o s).state).2 :=
  (resolve_frame o s).trans (readPlace_frame _ _)

section
variable {o : Operand} {n : Nat} {s t : State}

theorem execImplied_frame {op : State → State} (hop : ∀ u, ReadFrame u (op u)) (h : execImplied n op s = .next t) :
    ReadFrame s t := (hop s).finish h

theorem execRead_frame {x : Bool} {op : Byte → State → State} (hop : ∀ b, OnlyCpu (op b))
    (h : execRead o n x op s = .next t) : ReadFrame s t :=
  ((readOperand_frame o s).trans ((hop _).readFrame _)).finish h

theorem execNoAccess_frame (h : execNoAccess o n s = .next t) : ReadFrame s t := (resolve_frame o s).finish h

theorem execJump_frame (h : execJump o n s = .next t) : ReadFrame s t := ((resolve_frame o s).withCpu _).finish h

theorem execBranch_frame {b : Byte} {cond : Flags → Bool} (h : execBranch b n cond s = .next t) : ReadFrame s t := by
  unfold execBranch at h
  simp only at h
  split at h
  · exact ((ReadFrame.refl s).withCpu _).finish h
  · exact (ReadFrame.refl s).finish h

end

/-- The meaning of a mnemonic that neither stores, modifies nor pushes makes bus reads only. -/
theorem meaning_frame {m : Mnemonic} {o : Operand} {n : Nat} {s t : State} (hs : m.stores = false)
    (hp : m.pushes = false) (hm : m.modifies = false) (h : meaning m o n s = .next t) : ReadFrame s t := by
  cases m
  case sta | stx | sty | sax => cases hs
  case jsr | brk | pha | php => cases hp
  case inc | dec | asl | rol | lsr | ror | slo | rla | sre | rra | dcp | isc => cases hm
  case sha | shx | shy | tas => exact execNoAccess_frame h
  case jmp => exact execJump_frame h
  case bcc | bcs | beq | bne | bmi | bpl | bvc | bvs => unfold meaning at h; exact execBranch_frame h
  case lda | ldx | ldy | adc | sbc | and | ora | eor | bit | cmp | cpx | cpy | lax | anc | alr | arr | axs | nop | las | ane
      | lxa => exact execRead_frame (fun _ _ => rfl) h
  case rts => exact execImplied_frame opRts_frame h
  case rti => exact execImplied_frame trapReturn_frame h
  case pla => exact execImplied_frame opPla_frame h
  case plp => exact execImplied_frame opPlp_frame h
  case clc | sec | cli | sei | cld | sed | clv | tax | tay | txa | tya | tsx | txs | inx | iny | dex | dey | jam =>
    exact execImplied_frame (OnlyCpu.readFrame fun _ => rfl) h

/-- The meaning of a mnemonic that stores is a store (R193 to R195, R305). -/
theorem meaning_stores {m : Mnemonic} (o : Operand) (n : Nat) (hm : m.stores = true) :
    ∃ value, meaning m o n = execStore o n value := by
  cases m
  case sta | stx | sty | sax => unfold meaning; exact ⟨_, rfl⟩
  all_goals cases hm

/-- The meaning of a mnemonic that modifies is a read and a write, and then an operation on the CPU (R172). -/
theorem meaning_modifies {m : Mnemonic} (o : Operand) (n : Nat) (hm : m.modifies = true) :
    ∃ f op, (∀ b r, OnlyCpu (op b r)) ∧ meaning m o n = execModify o n f op := by
  cases m
  case inc | dec | asl | rol | lsr | ror | slo | rla | sre | rra | dcp | isc => exact ⟨_, _, fun _ _ _ => rfl, rfl⟩
  all_goals cases hm

/-- The accumulator mode is a mode of read-modify-write instructions only (R174). -/
theorem modifies_of_acc {i : Instr} (h : i.operand = .acc) : i.mnemonic.modifies = true := by
  cases i <;> cases h <;> rfl

/-- Settles O20: what does not store, push or modify makes bus reads only; and the accumulator forms modify A. -/
theorem nonStoringFrame : Obligations.NonStoringFrame := by
  intro i s t h
  rw [exec_meaning] at h
  refine ⟨fun hs hp hm => ?reads, fun acc => ?acc⟩
  case reads =>
    have frame := meaning_frame hs hp hm h
    exact ⟨frame, fun a => by rw [frame]; rfl, fun k => by rw [frame]; rfl⟩
  case acc =>
    obtain ⟨f, op, hop, run⟩ := meaning_modifies i.operand i.baseCycles (modifies_of_acc acc)
    rw [run, acc] at h
    rw [finish_next h, (hop _ _).eq_onCpu]
    rfl

/-! What a storing instruction can change (R172): one bus write, after bus reads and before changes of the CPU. -/

/-- From `s` to `t` there is one bus write, at `ea`; before it there are bus reads, and else only the CPU differs. -/
def WritesAt (ea : Word) (s t : State) : Prop := ∃ u v, ReadFrame s u ∧ t = onCpu t.cpu (memWrite ea v u)

theorem execStore_writesAt {o : Operand} {n : Nat} {value : Cpu → Byte} {s t : State} {ea : Word}
    (hea : (resolve o s).place = .mem ea) (h : execStore o n value s = .next t) : WritesAt ea s t := by
  refine ⟨_, value (resolve o s).state.cpu, resolve_frame o s, ?_⟩
  simp only [execStore, hea] at h
  exact finish_next h

theorem execModify_writesAt {o : Operand} {n : Nat} {f : Byte → Bool → Byte} {op : Byte → Byte → State → State}
    {s t : State} {ea : Word} (hop : ∀ b r, OnlyCpu (op b r)) (hea : (resolve o s).place = .mem ea)
    (h : execModify o n f op s = .next t) : WritesAt ea s t := by
  let m := readPlace (resolve o s).place (resolve o s).state
  let v := f m.1 m.2.cpu.p.c
  have write : writePlace (resolve o s).place v m.2 = memWrite ea v m.2 := by rw [hea]; rfl
  have last : t = onCpu t.cpu (op m.1 v (writePlace (resolve o s).place v m.2)) := finish_next h
  rw [(hop _ _).eq_onCpu, onCpu_onCpu, write] at last
  exact ⟨m.2, v, readOperand_frame o s, last⟩

theorem meaning_writesAt {m : Mnemonic} {o : Operand} {n : Nat} {s t : State} {ea : Word}
    (hm : m.stores = true ∨ m.modifies = true) (hea : (resolve o s).place = .mem ea) (h : meaning m o n s = .next t) :
    WritesAt ea s t := by
  obtain stores | modifies := hm
  · obtain ⟨value, run⟩ := meaning_stores o n stores
    exact execStore_writesAt hea (run ▸ h)
  · obtain ⟨f, op, hop, run⟩ := meaning_modifies o n modifies
    exact execModify_writesAt hop hea (run ▸ h)

/-- Settles O21: outside the CPU the instruction makes bus reads and one bus write, at the effective address. -/
theorem storingFrame : Obligations.StoringFrame := by
  intro i s t ea hm h hea
  rw [exec_meaning] at h
  obtain ⟨u, v, reads, last⟩ := meaning_writesAt hm hea h
  obtain ⟨other, frame, -⟩ := memWrite_other ea v u
  have same (a : Word) (ha : sameCell a ea = false) : ReadsSame a s t := by
    rw [last]
    exact ((ReadsSame.ofReadFrame reads).trans (other a ha)).trans (.cpu _ _)
  have ppu : t.ppu = (memWrite ea v u).ppu := (congrArg State.ppu last :)
  refine ⟨fun a work ha => (same a ha).work work, fun concrete a plain ha => (same a ha).value concrete plain,
    fun port => ?oam, fun port => ?video, ?frame⟩
  case oam => rw [ppu, memWrite_oam v u port, reads]
  case video =>
    obtain ⟨palette, nametable, pattern⟩ := memWrite_video v u port
    rw [ppu, palette, nametable, pattern, reads]
    exact ⟨rfl, rfl, rfl⟩
  case frame => rw [ppu, frame, reads]

/-! What a pushing instruction can change (R21, R92). -/

/-- The memories of the PPU are the same. -/
def SamePpuMemories (s t : State) : Prop :=
  t.ppu.oam = s.ppu.oam ∧ t.ppu.palette = s.ppu.palette ∧ t.ppu.nametable = s.ppu.nametable ∧
  t.ppu.pattern = s.ppu.pattern ∧ t.ppu.frame = s.ppu.frame

theorem SamePpuMemories.ofReadFrame {s t u : State} (hu : u.ppu = s.ppu) (h : ReadFrame u t) : SamePpuMemories s t := by
  unfold SamePpuMemories
  rw [h, hu]
  exact ⟨rfl, rfl, rfl, rfl, rfl⟩

theorem SamePpuMemories.ofPpu {s t : State} (h : t.ppu = s.ppu) : SamePpuMemories s t := .ofReadFrame h (.refl t)

theorem ReadsSame.setPc {a : Word} (w : Word) (s : State) : ReadsSame a s (s.setPc w) := .cpu s _

/-- The two pushes of a word change at most the bytes at S and S - 1 (R92). -/
theorem ReadsSame.pushWord {a : Word} {s : State} (w : Word) (h0 : sameCell a (stackAddr s.cpu.s) = false)
    (h1 : sameCell a (stackAddr (s.cpu.s - 1)) = false) : ReadsSame a s (pushWord w s) :=
  (ReadsSame.push _ h0).trans (ReadsSame.push _ (by rwa [push_cpu]))

@[simp] theorem pushWord_ppu (w : Word) (s : State) : (pushWord w s).ppu = s.ppu := by simp [pushWord]

/-- Taking a trap changes at most the bytes at S, S - 1 and S - 2 (R505). -/
theorem ReadsSame.trapEntry {a ret vector : Word} {status : Byte} {s : State}
    (h0 : sameCell a (stackAddr s.cpu.s) = false) (h1 : sameCell a (stackAddr (s.cpu.s - 1)) = false)
    (h2 : sameCell a (stackAddr (s.cpu.s - 2)) = false) : ReadsSame a s (trapEntry ret status vector s) := by
  have third : s.cpu.s - 1 - 1 = s.cpu.s - 2 := by bv_omega
  have pushes : ReadsSame a s (Machine.push status (Machine.pushWord ret s)) :=
    (ReadsSame.pushWord ret h0 h1).trans (ReadsSame.push _ (by rwa [pushWord_cpu, third]))
  exact ((pushes.trans (.cpu _ _)).trans (.ofReadFrame (read16_frame vector _))).trans (.cpu _ _)

theorem trapEntry_ppuMemories (ret vector : Word) (status : Byte) (s : State) :
    SamePpuMemories s (trapEntry ret status vector s) :=
  .ofReadFrame (by simp) ((read16_frame vector _).withCpu _)

/-- An address is none of the stack bytes that an instruction of mnemonic `m` writes from the stack pointer `p` on. -/
def OutsidePushed (m : Mnemonic) (p : Byte) (a : Word) : Prop :=
  sameCell a (stackAddr p) = false ∧
  (m = .jsr ∨ m = .brk → sameCell a (stackAddr (p - 1)) = false) ∧
  (m = .brk → sameCell a (stackAddr (p - 2)) = false)

/-- From `s` to `t` an instruction of mnemonic `m` changes at most the stack bytes it writes, and no PPU memory. -/
structure PushesOnly (m : Mnemonic) (s t : State) : Prop where
  reads : ∀ a, OutsidePushed m s.cpu.s a → ReadsSame a s t
  memories : SamePpuMemories s t

theorem opJsr_pushesOnly (target : Word) (s : State) : PushesOnly .jsr s (opJsr target s) where
  reads a h := by
    obtain ⟨h0, h1, -⟩ := h
    exact (ReadsSame.pushWord _ h0 (h1 (.inl rfl))).trans (.setPc target _)
  memories := .ofPpu (by simp [opJsr])

theorem opBrk_pushesOnly (s : State) : PushesOnly .brk s (opBrk s) where
  reads a h := by
    obtain ⟨h0, h1, h2⟩ := h
    exact ReadsSame.trapEntry h0 (h1 (.inr rfl)) (h2 rfl)
  memories := trapEntry_ppuMemories _ _ _ s

theorem push_pushesOnly (m : Mnemonic) (v : Byte) (s : State) : PushesOnly m s (push v s) where
  reads _ h := ReadsSame.push v h.1
  memories := .ofPpu (push_ppu v s)

theorem opPha_pushesOnly (s : State) : PushesOnly .pha s (opPha s) := push_pushesOnly .pha s.cpu.a s

theorem opPhp_pushesOnly (s : State) : PushesOnly .php s (opPhp s) := push_pushesOnly .php s.cpu.p.breakByte s

/-- The end of an instruction adds only its cost. -/
theorem PushesOnly.execImplied {m : Mnemonic} {n : Nat} {op : State → State} {s t : State} (hop : PushesOnly m s (op s))
    (h : execImplied n op s = .next t) : PushesOnly m s t := by
  rw [finish_next h]
  exact ⟨fun a ha => (hop.reads a ha).trans (.cpu _ _), hop.memories⟩

/-- The meaning of a mnemonic that pushes changes at most its stack bytes. -/
theorem meaning_pushesOnly {m : Mnemonic} {o : Operand} {n : Nat} {s t : State} (hm : m.pushes = true)
    (h : meaning m o n s = .next t) : PushesOnly m s t := by
  cases m
  case jsr => exact (opJsr_pushesOnly o.target s).execImplied h
  case brk => exact (opBrk_pushesOnly s).execImplied h
  case pha => exact (opPha_pushesOnly s).execImplied h
  case php => exact (opPhp_pushesOnly s).execImplied h
  all_goals cases hm

/-- Settles O22: outside the pushed bytes every address reads the same, and no push reaches the PPU. -/
theorem pushingFrame : Obligations.PushingFrame := by
  intro i s t hm h outside
  rw [exec_meaning] at h
  obtain ⟨same, memories⟩ := meaning_pushesOnly hm h
  exact ⟨fun a work ha => (same a ha).work work, fun concrete a plain ha => (same a ha).value concrete plain, memories⟩

end Sys2Proof.Machine
end

section
/-! SUPPORT. Loads (O1), stores (O2) and the register transfers and counts (O3), each with its whole next state. -/

namespace Sys2Proof.Machine

/-! An instruction that reads its operand (R171, R186). -/

/-- The mode and the operand read leave the CPU alone. -/
@[simp] theorem operandOf_cpu (i : Instr) (s : State) : (operandOf i s).2.cpu = s.cpu := by simp [operandOf]

/-- An instruction that reads its operand, and whose operation is the change `f` of the CPU, goes to the state after the
read with the CPU changed by `f`; it owes one cycle more where the mode asks for it and `extra_op` is 1. -/
theorem exec_of_read {m : Mnemonic} {i : Instr} {s : State} {x : Bool} {op : Byte → State → State} {f : Byte → Cpu → Cpu}
    (hi : i.mnemonic = m) (run : ∀ o n, meaning m o n = execRead o n x op)
    (change : ∀ b u, op b u = onCpu (f b u.cpu) u) :
    exec i s = .next (onCpu
      { f (operandOf i s).1 s.cpu with cycles := i.baseCycles + bif x then modeExtra i s else 0 } (operandOf i s).2) := by
  have cost : ((resolve i.operand s).extra && x).toNat = bif x then modeExtra i s else 0 := by
    cases x <;> simp [modeExtra]
  calc exec i s = finish (i.baseCycles + ((resolve i.operand s).extra && x).toNat)
        (op (operandOf i s).1 (operandOf i s).2) := by rw [exec_meaning, hi, run]; rfl
    _ = _ := by rw [change, operandOf_cpu, cost]; rfl

/-- Settles O1: the four loads read their operand, and their change of the CPU is the loaded register and `setZN`. -/
theorem loadResult : Obligations.LoadResult := by
  intro i s m p n
  refine ⟨fun hi => ?lda, fun hi => ?ldx, fun hi => ?ldy, fun hi => ?lax⟩
  case lda => exact exec_of_read (f := fun b c => { c with a := b, p := c.p.setZN b }) hi (fun _ _ => rfl) fun _ _ => rfl
  case ldx => exact exec_of_read (f := fun b c => { c with x := b, p := c.p.setZN b }) hi (fun _ _ => rfl) fun _ _ => rfl
  case ldy => exact exec_of_read (f := fun b c => { c with y := b, p := c.p.setZN b }) hi (fun _ _ => rfl) fun _ _ => rfl
  case lax =>
    exact exec_of_read (f := fun b c => { c with a := b, x := b, p := c.p.setZN b }) hi (fun _ _ => rfl) fun _ _ => rfl

/-! An instruction that stores a register value (R193 to R195, R305). -/

/-- Every form of a storing instruction has its place in memory. -/
theorem place_of_stores {i : Instr} (h : i.mnemonic.stores = true) (s : State) :
    ∃ ea, (resolve i.operand s).place = .mem ea := by
  cases i <;> cases h <;> exact ⟨_, rfl⟩

/-- An instruction that stores `value` makes one write, at its effective address, after the pointer reads of the mode, and
owes its base cost. -/
theorem exec_of_store {m : Mnemonic} {i : Instr} {value : Cpu → Byte} (hi : i.mnemonic = m) (stores : m.stores = true)
    (run : ∀ o n, meaning m o n = execStore o n value) (s : State) :
    ∃ ea, (resolve i.operand s).place = .mem ea ∧ exec i s = .next
      (onCpu { s.cpu with cycles := i.baseCycles } (memWrite ea (value s.cpu) (resolve i.operand s).state)) := by
  obtain ⟨ea, place⟩ := place_of_stores (hi ▸ stores) s
  refine ⟨ea, place, ?_⟩
  simp only [exec_meaning, hi, run, execStore, place, writePlace, finish, setCycles_onCpu, memWrite_cpu, resolve_cpu]

/-- Settles O2: the four stores write their register value. -/
theorem storeResult : Obligations.StoreResult := by
  intro i s r stored
  refine ⟨fun hi => ?sta, fun hi => ?stx, fun hi => ?sty, fun hi => ?sax⟩
  case sta => exact exec_of_store (value := Cpu.a) hi rfl (fun _ _ => rfl) s
  case stx => exact exec_of_store (value := Cpu.x) hi rfl (fun _ _ => rfl) s
  case sty => exact exec_of_store (value := Cpu.y) hi rfl (fun _ _ => rfl) s
  case sax => exact exec_of_store (value := fun c => c.a &&& c.x) hi rfl (fun _ _ => rfl) s

/-! Register transfers (R196 to R201) and counts modulo 256 (R221 to R224). -/

/-- Counting a byte up is adding 1 to its number, modulo 256. -/
theorem byte_up_eq (b : Byte) : BitVec.ofNat 8 (b.toNat + 1) = b + 1 := by bv_omega

/-- Counting a byte down is adding 255 to its number, modulo 256. -/
theorem byte_down_eq (b : Byte) : BitVec.ofNat 8 (b.toNat + 255) = b - 1 := by bv_omega

/-- Settles O3: a transfer's operation on the CPU is the statement's own; a count's is, once the counts modulo 256 are read
as byte arithmetic. -/
theorem transferResult : Obligations.TransferResult := by
  intro s zn up down
  have up_eq (b : Byte) : up b = b + 1 := byte_up_eq b
  have down_eq (b : Byte) : down b = b - 1 := byte_down_eq b
  refine ⟨exec_tax s, exec_tay s, exec_txa s, exec_tya s, exec_tsx s, exec_txs s, ?inx, ?iny, ?dex, ?dey⟩
  case inx => rw [up_eq]; exact exec_inx s
  case iny => rw [up_eq]; exact exec_iny s
  case dex => rw [down_eq]; exact exec_dex s
  case dey => rw [down_eq]; exact exec_dey s

end Sys2Proof.Machine
end

section
/-! SUPPORT. ADC and SBC (O4, O5), AND, ORA and EOR (O6), the compares and BIT (O7), and the read-modify-write instructions
(O8), each with its whole next state in integers. -/

namespace Sys2Proof.Machine

/-! A byte as a number: its top bit, and the Z and N that describe it (R9). -/

/-- Bit 7 of a byte says that its number is 128 or more. -/
theorem byte_bit7_eq (b : Byte) : b.getLsbD 7 = decide (128 ≤ b.toNat) := by
  have h := b.isLt
  rw [← BitVec.testBit_toNat, Nat.testBit_eq_decide_div_mod_eq, decide_eq_decide]
  omega

/-- Bit 0 of a byte says that its number is odd. -/
theorem byte_bit0_eq (b : Byte) : b.getLsbD 0 = decide (b.toNat % 2 = 1) := by
  rw [← BitVec.testBit_toNat, Nat.testBit_zero]

theorem Flags.setZN_eq (v : Byte) (p : Flags) :
    p.setZN v = { p with z := decide (v.toNat = 0), n := decide (128 ≤ v.toNat) } := by
  have zero : v = 0 ↔ v.toNat = 0 := BitVec.toNat_inj.symm
  rw [← byte_bit7_eq, ← decide_eq_decide.mpr zero]
  rfl

theorem Flags.setZN_ofNat (k : Nat) (p : Flags) :
    p.setZN (BitVec.ofNat 8 k) = { p with z := decide (k % 256 = 0), n := decide (128 ≤ k % 256) } := by
  rw [Flags.setZN_eq, BitVec.toNat_ofNat]

/-- A byte as a signed number. -/
theorem byte_toInt_eq (b : Byte) : b.toInt = if b.toNat < 128 then (b.toNat : Int) else b.toNat - 256 := by
  rw [BitVec.toInt_eq_toNat_cond]
  split <;> split <;> omega

/-! The adder (R226): its three answers as integers. -/

/-- The result is the unsigned sum modulo 256. -/
theorem addWithCarry_r (a m : Byte) (k : Bool) :
    (addWithCarry a m k).r = BitVec.ofNat 8 (a.toNat + m.toNat + k.toNat) :=
  BitVec.eq_of_toNat_eq (by simp [addWithCarry])

/-- The carry out says that the unsigned sum left 0 to 255. -/
theorem addWithCarry_cout (a m : Byte) (k : Bool) :
    (addWithCarry a m k).cout = decide (255 < a.toNat + m.toNat + k.toNat) := by
  have ha := a.isLt
  have hm := m.isLt
  have hk := k.toNat_le
  have sum9 : (a.setWidth 9 + m.setWidth 9 + (BitVec.ofBool k).setWidth 9).toNat =
      (a.toNat + m.toNat + k.toNat) % 512 := by simp
  simp only [addWithCarry, ← BitVec.testBit_toNat, Nat.testBit_eq_decide_div_mod_eq, decide_eq_decide, sum9]
  omega

/-- A byte masked to its top bit is zero exactly when the bit is. -/
theorem byte_and_0x80_ne_zero (b : Byte) : b &&& 0x80 ≠ 0 ↔ b.getLsbD 7 = true := by
  revert b; decide

/-- Signed overflow: both operands have the sign that the result has not (R226). -/
theorem addWithCarry_vout_signs (a m : Byte) (k : Bool) :
    (addWithCarry a m k).vout = ((a.getLsbD 7 ^^ (addWithCarry a m k).r.getLsbD 7) &&
      (m.getLsbD 7 ^^ (addWithCarry a m k).r.getLsbD 7)) := by
  rw [← BitVec.getLsbD_xor, ← BitVec.getLsbD_xor, ← BitVec.getLsbD_and]
  exact Bool.eq_iff_iff.mpr (decide_eq_true_iff.trans (byte_and_0x80_ne_zero _))

/-- The overflow says that the signed sum left -128 to 127. -/
theorem addWithCarry_vout (a m : Byte) (k : Bool) :
    (addWithCarry a m k).vout =
      decide (a.toInt + m.toInt + k.toNat < -128 ∨ 127 < a.toInt + m.toInt + k.toNat) := by
  have ha := a.isLt
  have hm := m.isLt
  have hk := k.toNat_le
  rw [addWithCarry_vout_signs, addWithCarry_r, Bool.eq_iff_iff]
  simp only [byte_bit7_eq, BitVec.toNat_ofNat, byte_toInt_eq, Bool.and_eq_true, bne_iff_ne, ne_eq, decide_eq_true_eq,
    decide_eq_decide]
  omega

/-! The complement of a byte, which SBC adds (R211). -/

theorem byte_not_toNat (b : Byte) : ((~~~b).toNat : Int) = 255 - b.toNat := by
  have h := b.isLt
  rw [BitVec.toNat_not]
  omega

theorem byte_not_toInt (b : Byte) : (~~~b).toInt = -1 - b.toInt := by
  have h := byte_not_toNat b
  simp only [byte_toInt_eq]
  omega

/-! The sum into A, as a change of the CPU. -/

/-- What `addToA` makes of the CPU (R210, R211). -/
def Cpu.add (m : Byte) (k : Bool) (c : Cpu) : Cpu :=
  let t := addWithCarry c.a m k
  { c with a := t.r, p := c.p.ofSum t }

theorem addToA_onCpu (m : Byte) (k : Bool) (s : State) : addToA m k s = onCpu (s.cpu.add m k) s := rfl

/-- ADC's change of the CPU in integers (R210). -/
theorem Cpu.add_eq (m : Byte) (k : Bool) (c : Cpu) :
    let u : Nat := c.a.toNat + m.toNat + k.toNat
    let g : Int := c.a.toInt + m.toInt + k.toNat
    c.add m k = { c with
      a := BitVec.ofNat 8 u
      p := { c.p with
        c := decide (255 < u), z := decide (u % 256 = 0), v := decide (g < -128 ∨ 127 < g)
        n := decide (128 ≤ u % 256) } } := by
  simp only [Cpu.add, Flags.ofSum, addWithCarry_r, addWithCarry_cout, addWithCarry_vout, Flags.setZN_ofNat]

/-- Adding the complemented operand is subtracting it and the borrow: SBC's change of the CPU in integers (R211). -/
theorem Cpu.add_complement_eq (m : Byte) (k : Bool) (c : Cpu) :
    let d : Int := (c.a.toNat : Int) - m.toNat - (!k).toNat
    let g : Int := c.a.toInt - m.toInt - (!k).toNat
    c.add (m ^^^ 0xFF) k = { c with
      a := BitVec.ofInt 8 d
      p := { c.p with
        c := decide (0 ≤ d), z := decide (d % 256 = 0), v := decide (g < -128 ∨ 127 < g)
        n := decide (128 ≤ d % 256) } } := by
  intro d g
  have complement : m ^^^ 0xFF = ~~~m := BitVec.xor_allOnes
  have borrow : ((!k).toNat : Int) = 1 - k.toNat := by cases k <;> rfl
  have sum : ((c.a.toNat + (~~~m).toNat + k.toNat : Nat) : Int) = d + 256 := by
    have h := byte_not_toNat m
    omega
  have signedSum : c.a.toInt + (~~~m).toInt + k.toNat = g := by
    rw [byte_not_toInt]
    omega
  rw [complement, Cpu.add_eq]
  generalize c.a.toNat + (~~~m).toNat + k.toNat = u at sum ⊢
  have result : BitVec.ofNat 8 u = BitVec.ofInt 8 d := by
    rw [← BitVec.ofInt_natCast, sum, BitVec.ofInt_add]
    exact BitVec.add_zero _
  have carry : 255 < u ↔ 0 ≤ d := by omega
  have zero : u % 256 = 0 ↔ d % 256 = 0 := by omega
  have negative : 128 ≤ u % 256 ↔ 128 ≤ d % 256 := by omega
  simp only [signedSum, result, carry, zero, negative]

/-- Settles O4: ADC reads its operand and adds it and C. -/
theorem addResult : Obligations.AddResult := by
  intro i s hi m u g
  rw [exec_of_read (f := fun b c => c.add b c.p.c) hi (fun _ _ => rfl) fun _ _ => addToA_onCpu _ _ _, Cpu.add_eq]
  rfl

/-- Settles O5: SBC reads its operand and adds the complement and C. -/
theorem subtractResult : Obligations.SubtractResult := by
  intro i s hi m d g
  rw [exec_of_read (f := fun b c => c.add (b ^^^ 0xFF) c.p.c) hi (fun _ _ => rfl) fun _ _ => addToA_onCpu _ _ _,
    Cpu.add_complement_eq]
  rfl

/-! The bitwise operations into A (R212 to R214). -/

/-- An instruction that puts a result from A and its operand in A goes to the state after the read with that result in A and
Z and N from it. -/
theorem exec_of_resultInA {m : Mnemonic} {i : Instr} {x : Bool} {op : Byte → State → State} {v : Byte → Byte → Byte}
    (hi : i.mnemonic = m) (run : ∀ o n, meaning m o n = execRead o n x op)
    (change : ∀ b u, op b u = resultInA (v u.cpu.a b) u) (s : State) :
    let b := operandOf i s
    let r := v s.cpu.a b.1
    exec i s = .next { b.2 with cpu := { s.cpu with
      a := r, p := { s.cpu.p with z := decide (r = 0), n := r.getLsbD 7 }
      cycles := i.baseCycles + bif x then modeExtra i s else 0 } } :=
  exec_of_read (f := fun b c => { c with a := v c.a b, p := c.p.setZN (v c.a b) }) hi run change

/-- Settles O6: AND, ORA and EOR each put their bitwise result in A. -/
theorem logicResult : Obligations.LogicResult := by
  intro i s m done
  refine ⟨fun hi => ?and, fun hi => ?ora, fun hi => ?eor⟩
  case and => exact exec_of_resultInA (v := fun a b => a &&& b) hi (fun _ _ => rfl) (fun _ _ => rfl) s
  case ora => exact exec_of_resultInA (v := fun a b => a ||| b) hi (fun _ _ => rfl) (fun _ _ => rfl) s
  case eor => exact exec_of_resultInA (v := fun a b => a ^^^ b) hi (fun _ _ => rfl) (fun _ _ => rfl) s

/-! The compares (R227). -/

theorem Flags.compare_eq (r m : Byte) (p : Flags) :
    p.compare r m = { p with
      c := decide (m.toNat ≤ r.toNat), z := decide (r = m), n := decide (128 ≤ ((r.toNat : Int) - m.toNat) % 256) } := by
  have difference : ((r - m).toNat : Int) = ((r.toNat : Int) - m.toNat) % 256 := by
    rw [BitVec.toNat_sub]
    omega
  have negative : (r - m).getLsbD 7 = decide (128 ≤ ((r.toNat : Int) - m.toNat) % 256) := by
    rw [byte_bit7_eq, ← difference, decide_eq_decide]
    omega
  rw [Flags.compare, negative]
  rfl

/-- An instruction that compares a register with its operand goes to the state after the read with C, Z and N from the
comparison. -/
theorem exec_of_compare {m : Mnemonic} {i : Instr} {x : Bool} {op : Byte → State → State} {reg : Cpu → Byte}
    (hi : i.mnemonic = m) (run : ∀ o n, meaning m o n = execRead o n x op)
    (change : ∀ b u, op b u = u.mapP (Flags.compare (reg u.cpu) b)) (s : State) :
    let b := operandOf i s
    let r := reg s.cpu
    exec i s = .next { b.2 with cpu := { s.cpu with
      p := { s.cpu.p with
        c := decide (b.1.toNat ≤ r.toNat), z := decide (r = b.1)
        n := decide (128 ≤ ((r.toNat : Int) - b.1.toNat) % 256) }
      cycles := i.baseCycles + bif x then modeExtra i s else 0 } } := by
  intro b r
  rw [exec_of_read (f := fun b c => { c with p := c.p.compare (reg c) b }) hi run change, Flags.compare_eq]
  rfl

/-- Settles O7: the three compares are one comparison of three registers; BIT's change of the CPU is the statement's own. -/
theorem compareResult : Obligations.CompareResult := by
  intro i s m done
  refine ⟨fun hi => ?cmp, fun hi => ?cpx, fun hi => ?cpy, fun hi => ?bit⟩
  case cmp => exact exec_of_compare (reg := Cpu.a) hi (fun _ _ => rfl) (fun _ _ => rfl) s
  case cpx => exact exec_of_compare (reg := Cpu.x) hi (fun _ _ => rfl) (fun _ _ => rfl) s
  case cpy => exact exec_of_compare (reg := Cpu.y) hi (fun _ _ => rfl) (fun _ _ => rfl) s
  case bit =>
    exact exec_of_read (f := fun b c => { c with
      p := { c.p with z := decide (c.a &&& b = 0), v := b.getLsbD 6, n := b.getLsbD 7 } }) hi (fun _ _ => rfl) fun _ _ => rfl

/-! An instruction that reads a byte and writes its result at the same place (R171, R186). -/

/-- A write changes no flag. -/
@[simp] theorem writePlace_p (q : Place) (v : Byte) (s : State) : (writePlace q v s).cpu.p = s.cpu.p := by
  cases q <;> simp [writePlace]

/-- A read-modify-write instruction whose operation is the change `g` of the CPU makes one read and one write, of
`f m C`, at the place of its mode, then changes the CPU by `g`, and owes its base cost. -/
theorem exec_of_modify {m : Mnemonic} {i : Instr} {f : Byte → Bool → Byte} {op : Byte → Byte → State → State}
    {g : Byte → Byte → Cpu → Cpu} (hi : i.mnemonic = m) (run : ∀ o n, meaning m o n = execModify o n f op)
    (change : ∀ b r u, op b r u = onCpu (g b r u.cpu) u) (s : State) :
    let r := resolve i.operand s
    let b := readPlace r.place r.state
    let v := f b.1 s.cpu.p.c
    let t := writePlace r.place v b.2
    exec i s = .next (onCpu { g b.1 v t.cpu with cycles := i.baseCycles } t) := by
  intro r b v t
  have carry : f b.1 b.2.cpu.p.c = v := by simp [v, b, r]
  calc exec i s = finish i.baseCycles (op b.1 (f b.1 b.2.cpu.p.c) (writePlace r.place (f b.1 b.2.cpu.p.c) b.2)) := by
        rw [exec_meaning, hi, run]; rfl
    _ = finish i.baseCycles (op b.1 v t) := by rw [carry]
    _ = _ := by rw [change]; rfl

/-- Where the result is the number `num` of the operand and C, and the flags are a carry and Z and N of the result, the
whole next state in numbers. -/
theorem exec_of_modify_num {m : Mnemonic} {i : Instr} {f : Byte → Bool → Byte} {op : Byte → Byte → State → State}
    {num : Nat → Bool → Nat} {carry : Nat → Bool → Bool} (hi : i.mnemonic = m)
    (run : ∀ o n, meaning m o n = execModify o n f op) (value : ∀ b k, f b k = BitVec.ofNat 8 (num b.toNat k))
    (change : ∀ b r u, op b r u = u.mapP fun p => { p.setZN r with c := carry b.toNat p.c }) (s : State) :
    let r := resolve i.operand s
    let b := readPlace r.place r.state
    let v := num b.1.toNat s.cpu.p.c
    let t := writePlace r.place (BitVec.ofNat 8 v) b.2
    exec i s = .next { t with cpu := { t.cpu with
      p := { s.cpu.p with
        c := carry b.1.toNat s.cpu.p.c, z := decide (v % 256 = 0), n := decide (128 ≤ v % 256) }
      cycles := i.baseCycles } } := by
  intro r b v t
  rw [exec_of_modify (g := fun b r c => { c with p := { c.p.setZN r with c := carry b.toNat c.p.c } }) hi run change s,
    value, Flags.setZN_ofNat]
  simp only [writePlace_p, readPlace_cpu, resolve_cpu]
  rfl

/-! The results of the shifts and rotates as numbers (R240 to R243), and their carries. -/

theorem aslByte_eq (b : Byte) (k : Bool) : aslByte b k = BitVec.ofNat 8 (2 * b.toNat) := shiftLeft_one_eq b

theorem lsrByte_eq (b : Byte) (k : Bool) : lsrByte b k = BitVec.ofNat 8 (b.toNat / 2) := by
  have h := b.isLt
  refine BitVec.eq_of_toNat_eq ?_
  rw [lsrByte, BitVec.toNat_ushiftRight, BitVec.toNat_ofNat, Nat.shiftRight_one]
  omega

/-- The carry enters bit 0, which the shift has left clear. -/
theorem rolByte_eq (b : Byte) (k : Bool) : rolByte b k = BitVec.ofNat 8 (2 * b.toNat + k.toNat) := by
  revert b k; decide

/-- The carry enters bit 7, which the shift has left clear. -/
theorem rorByte_eq (b : Byte) (k : Bool) : rorByte b k = BitVec.ofNat 8 (b.toNat / 2 + 128 * k.toNat) := by
  revert b k; decide

theorem flagsLeft_eq (b r : Byte) (s : State) :
    flagsLeft b r s = s.mapP fun p => { p.setZN r with c := decide (128 ≤ b.toNat) } := by
  rw [flagsLeft, byte_bit7_eq]

theorem flagsRight_eq (b r : Byte) (s : State) :
    flagsRight b r s = s.mapP fun p => { p.setZN r with c := decide (b.toNat % 2 = 1) } := by
  rw [flagsRight, byte_bit0_eq]

/-- Settles O8: each of the six has its result and its carry as a number of the operand and C. -/
theorem modifyResult : Obligations.ModifyResult := by
  intro i s r m x done
  refine ⟨fun hi => ?inc, fun hi => ?dec, fun hi => ?asl, fun hi => ?lsr, fun hi => ?rol, fun hi => ?ror⟩
  case inc =>
    exact exec_of_modify_num (num := fun x _ => x + 1) (carry := fun _ k => k) hi (fun _ _ => rfl)
      (fun b _ => (byte_up_eq b).symm) (fun _ _ _ => rfl) s
  case dec =>
    exact exec_of_modify_num (num := fun x _ => x + 255) (carry := fun _ k => k) hi (fun _ _ => rfl)
      (fun b _ => (byte_down_eq b).symm) (fun _ _ _ => rfl) s
  case asl =>
    exact exec_of_modify_num (num := fun x _ => 2 * x) (carry := fun x _ => decide (128 ≤ x)) hi (fun _ _ => rfl)
      aslByte_eq flagsLeft_eq s
  case lsr =>
    exact exec_of_modify_num (num := fun x _ => x / 2) (carry := fun x _ => decide (x % 2 = 1)) hi (fun _ _ => rfl)
      lsrByte_eq flagsRight_eq s
  case rol =>
    exact exec_of_modify_num (num := fun x k => 2 * x + k.toNat) (carry := fun x _ => decide (128 ≤ x)) hi (fun _ _ => rfl)
      rolByte_eq flagsLeft_eq s
  case ror =>
    exact exec_of_modify_num (num := fun x k => x / 2 + 128 * k.toNat) (carry := fun x _ => decide (x % 2 = 1)) hi
      (fun _ _ => rfl) rorByte_eq flagsRight_eq s

end Sys2Proof.Machine
end

section
/-! SUPPORT. Control flow: JMP, JSR and RTS (O9), the eight branches (O10), BRK and RTI (O11), each with its whole next
state. The stack operations and the traps are first written as bus accesses from one state and one change of the CPU. -/

namespace Sys2Proof.Machine

/-! S moved by one and then by one more (R10, R21). -/

theorem byte_sub_one_one (b : Byte) : b - 1 - 1 = b - 2 := by bv_omega

theorem byte_sub_two_one (b : Byte) : b - 2 - 1 = b - 3 := by bv_omega

theorem byte_add_one_one (b : Byte) : b + 1 + 1 = b + 2 := by bv_omega

theorem byte_add_two_one (b : Byte) : b + 2 + 1 = b + 3 := by bv_omega

/-! The stack operations, the vector read and the traps as bus accesses and a change of the CPU. -/

/-- A push writes at S and lowers S. -/
theorem push_eq (v : Byte) (s : State) :
    push v s = onCpu { s.cpu with s := s.cpu.s - 1 } (memWrite (stackAddr s.cpu.s) v s) := by
  simp only [push, setS_onCpu, memWrite_cpu]

/-- A pop raises S and reads there. -/
theorem pop_eq (s : State) :
    let r := memRead (stackAddr (s.cpu.s + 1)) s
    pop s = (r.1, onCpu { s.cpu with s := s.cpu.s + 1 } r.2) := by
  simp only [pop, setS_onCpu, onCpu_cpu, memRead_onCpu]

/-- A pushed word is two writes, its high byte at S and its low byte below (R92). -/
theorem pushWord_eq (w : Word) (s : State) :
    pushWord w s = onCpu { s.cpu with s := s.cpu.s - 2 }
      (memWrite (stackAddr (s.cpu.s - 1)) (lo w) (memWrite (stackAddr s.cpu.s) (hi w) s)) := by
  simp only [pushWord, push_eq, onCpu_cpu, memWrite_onCpu, onCpu_onCpu, byte_sub_one_one]

/-- A 16-bit read does not depend on the CPU registers and leaves them alone. -/
theorem read16_onCpu (a : Word) (c : Cpu) (s : State) :
    read16 a (onCpu c s) = ((read16 a s).1, onCpu c (read16 a s).2) := by
  simp only [read16, memRead_onCpu]

/-- Taking a trap is three writes from S down and the read of the vector (R494, R505). -/
theorem trapEntry_eq (ret : Word) (status : Byte) (vector : Word) (s : State) :
    let t := memWrite (stackAddr s.cpu.s) (hi ret) s
    let u := memWrite (stackAddr (s.cpu.s - 1)) (lo ret) t
    let v := memWrite (stackAddr (s.cpu.s - 2)) status u
    let r := read16 vector v
    trapEntry ret status vector s =
      onCpu { s.cpu with s := s.cpu.s - 3, p := { s.cpu.p with i := true }, pc := r.1 } r.2 := by
  simp only [trapEntry, push_eq, pushWord_eq, setP_onCpu, setPc_onCpu, onCpu_cpu, memWrite_onCpu, read16_onCpu,
    onCpu_onCpu, byte_sub_two_one]

/-- Returning from a trap is three reads from above S, the status byte first (R263, R506). -/
theorem trapReturn_eq (s : State) :
    let p := memRead (stackAddr (s.cpu.s + 1)) s
    let l := memRead (stackAddr (s.cpu.s + 2)) p.2
    let h := memRead (stackAddr (s.cpu.s + 3)) l.2
    trapReturn s = onCpu { s.cpu with s := s.cpu.s + 3, p := Flags.ofByte p.1, pc := wordOf h.1 l.1 } h.2 := by
  simp only [trapReturn, pop_eq, setP_onCpu, setPc_onCpu, onCpu_cpu, memRead_onCpu, onCpu_onCpu, byte_add_one_one,
    byte_add_two_one]

/-! JMP, JSR and RTS (R250 to R252). -/

theorem lo_toNat (w : Word) : (lo w).toNat = w.toNat % 256 := by rw [lo, extract_toNat]; omega

/-- The high byte of the indirect jump's pointer is read at the next address, but at the start of the same page when the
low byte of the pointer's address is 0xFF (R180). -/
theorem pointerHigh_eq (w : Word) :
    wordOf (hi w) (lo w + 1) = if w.toNat % 256 = 255 then w - 255 else w + 1 := by
  have address : (wordOf (hi w) (lo w + 1)).toNat = w.toNat / 256 * 256 + (w.toNat % 256 + 1) % 256 := by
    have high : (hi w).toNat = w.toNat / 256 := page_toNat w
    rw [wordOf_toNat, BitVec.toNat_add, lo_toNat, high]
    rfl
  refine BitVec.eq_of_toNat_eq ?_
  rw [address]
  split
  next lastByte => bv_omega
  next inside => bv_omega

/-- JSR is two writes, of the address of its last byte, and the jump (R251). -/
theorem opJsr_eq (target : Word) (s : State) :
    let ret := s.cpu.pc - 1
    let t := memWrite (stackAddr s.cpu.s) (hi ret) s
    let u := memWrite (stackAddr (s.cpu.s - 1)) (lo ret) t
    opJsr target s = onCpu { s.cpu with s := s.cpu.s - 2, pc := target } u := by
  simp only [opJsr, pushWord_eq, setPc_onCpu, onCpu_cpu, onCpu_onCpu]

/-- RTS is two reads from above S, and the jump past the address they give (R252). -/
theorem opRts_eq (s : State) :
    let l := memRead (stackAddr (s.cpu.s + 1)) s
    let h := memRead (stackAddr (s.cpu.s + 2)) l.2
    opRts s = onCpu { s.cpu with s := s.cpu.s + 2, pc := wordOf h.1 l.1 + 1 } h.2 := by
  simp only [opRts, pop_eq, setPc_onCpu, onCpu_cpu, memRead_onCpu, onCpu_onCpu, byte_add_one_one]

/-- The indirect jump is two reads, of the pointer, and the jump (R250). -/
theorem exec_jmpInd_eq (w : Word) (s : State) :
    let l := memRead w s
    let h := memRead (if w.toNat % 256 = 255 then w - 255 else w + 1) l.2
    exec (.jmpInd w) s = .next (onCpu { s.cpu with pc := wordOf h.1 l.1, cycles := 5 } h.2) := by
  simp only [exec_jmpInd, execJump, resolve, jumpPointer, Place.addr, pointerHigh_eq, finish, setPc_onCpu,
    setCycles_onCpu, onCpu_cpu, onCpu_onCpu, memRead_cpu]

/-- Settles O9: a JMP reads its pointer at most, JSR pushes and RTS pops a word. -/
theorem jumpResult : Obligations.JumpResult := by
  intro w s
  refine ⟨exec_jmpAbs w s, exec_jmpInd_eq w s, ?jsr, ?rts⟩
  case jsr => rw [exec_jsr, execImplied, opJsr_eq]; rfl
  case rts => rw [exec_rts, execImplied, opRts_eq]; rfl

/-! The branches (R253 to R261). -/

/-- The instructions of the relative mode are the eight branches, each with its condition (R254 to R261). -/
theorem exec_of_rel {i : Instr} {b : Byte} (h : i.operand = .rel b) (s : State) :
    exec i s = execBranch b 2 (branchTaken i.mnemonic) s := by
  cases i <;> cases h <;> rfl

/-- The target is the signed sum modulo 2^16 (R185). -/
theorem branchTarget_eq (pc : Word) (b : Byte) : pc + sext16 b = BitVec.ofInt 16 ((pc.toNat : Int) + b.toInt) := by
  rw [BitVec.ofInt_add, BitVec.ofInt_natCast, BitVec.ofNat_toNat, BitVec.setWidth_eq]
  rfl

/-- A taken branch costs 3 cycles to a target on the same page and 4 to one on another (R253). -/
theorem takenCost_eq (ea pc : Word) :
    2 + 1 + (decide (page ea ≠ page pc)).toNat = if ea.toNat / 256 = pc.toNat / 256 then 3 else 4 := by
  have same : page ea = page pc ↔ ea.toNat / 256 = pc.toNat / 256 := by
    rw [← BitVec.toNat_inj, page_toNat, page_toNat]
  split
  next samePage => simp [same, samePage]
  next otherPage => simp [same, otherPage]

/-- Settles O10: a branch goes to its target where its condition holds, and to the next instruction where it does not. -/
theorem branchResult : Obligations.BranchResult := by
  intro i b s h target
  have place : (resolve (.rel b) s).place.addr = target := branchTarget_eq s.cpu.pc b
  rw [exec_of_rel h, execBranch, place, takenCost_eq]
  cases branchTaken i.mnemonic s.cpu.p with
  | true => rfl
  | false => rfl

/-! BRK and RTI (R262, R263). -/

/-- Settles O11: BRK takes a trap and RTI returns from one. -/
theorem brkRtiResult : Obligations.BrkRtiResult := by
  intro s
  refine ⟨?brk, Flags.ofByte (memRead (stackAddr (s.cpu.s + 1)) s).1, Laws.toByte_ofByte _, ?rti⟩
  case brk => rw [exec_brk, execImplied, opBrk, trapEntry_eq]; rfl
  case rti => rw [exec_rti, execImplied, trapReturn_eq]; rfl

end Sys2Proof.Machine
end

section
/-! SUPPORT. The stack instructions (O12), the seven flag instructions (O13), and NOP, JAM and the unstable opcodes (O14),
each with its whole next state. -/

namespace Sys2Proof.Machine

/-! PHA, PHP, PLA and PLP (R280 to R283). -/

/-- PLA is one read from above S, into A (R282). -/
theorem opPla_eq (s : State) :
    let r := memRead (stackAddr (s.cpu.s + 1)) s
    opPla s = onCpu { s.cpu with a := r.1, s := s.cpu.s + 1, p := s.cpu.p.setZN r.1 } r.2 := by
  simp only [opPla, pop_eq, setA_onCpu, setZN_onCpu, onCpu_cpu, onCpu_onCpu]

/-- PLP is one read from above S, into P (R283). -/
theorem opPlp_eq (s : State) :
    let r := memRead (stackAddr (s.cpu.s + 1)) s
    opPlp s = onCpu { s.cpu with s := s.cpu.s + 1, p := Flags.ofByte r.1 } r.2 := by
  simp only [opPlp, pop_eq, setP_onCpu, onCpu_cpu, onCpu_onCpu]

/-- Settles O12: PHA and PHP are one push, PLA and PLP one pop; the flags PLP sets are those of the byte read. -/
theorem stackResult : Obligations.StackResult := by
  intro s up
  refine ⟨?pha, ?php, ?pla, Flags.ofByte up.1, Laws.toByte_ofByte _, ?plp⟩
  case pha => rw [exec_pha, execImplied, opPha, push_eq]; rfl
  case php => rw [exec_php, execImplied, opPhp, push_eq]; rfl
  case pla => rw [exec_pla, execImplied, opPla_eq]; rfl
  case plp => rw [exec_plp, execImplied, opPlp_eq]; rfl

/-! The flag instructions (R284 to R290). -/

/-- Settles O13: each flag instruction is one change of P, the statement's own. -/
theorem flagResult : Obligations.FlagResult := by
  intro s done
  exact ⟨exec_clc s, exec_sec s, exec_cli s, exec_sei s, exec_cld s, exec_sed s, exec_clv s⟩

/-! NOP, JAM and the unstable opcodes (R291, R301 to R303, R317 to R324). -/

/-- The JAM opcodes have no operand (R317). -/
theorem operand_of_jam {i : Instr} (h : i.mnemonic = .jam) : i.operand = .imp := by
  cases i <;> cases h <;> rfl

/-- ANE and LXA have an immediate operand (R318, R319). -/
theorem operand_of_ane_lxa {i : Instr} (h : i.mnemonic = .ane ∨ i.mnemonic = .lxa) : ∃ b, i.operand = .imm b := by
  rcases h with h | h <;> cases i <;> cases h <;> exact ⟨_, rfl⟩

/-- ANE and LXA owe no extra cycle: the immediate mode signals none. -/
theorem modeExtra_of_ane_lxa {i : Instr} (h : i.mnemonic = .ane ∨ i.mnemonic = .lxa) (s : State) : modeExtra i s = 0 := by
  obtain ⟨b, imm⟩ := operand_of_ane_lxa h
  rw [modeExtra, imm]
  rfl

/-- An instruction that reads its operand and discards it goes to the state after the read. -/
theorem exec_of_discard {m : Mnemonic} {i : Instr} {x : Bool} (hi : i.mnemonic = m)
    (run : ∀ o n, meaning m o n = execRead o n x opDiscard) (s : State) :
    exec i s = .next (onCpu { s.cpu with cycles := i.baseCycles + bif x then modeExtra i s else 0 } (operandOf i s).2) :=
  exec_of_read (f := fun _ c => c) hi run fun _ _ => rfl

/-- A JAM opcode only owes its base cost (R317). -/
theorem exec_of_jam {i : Instr} (h : i.mnemonic = .jam) (s : State) :
    exec i s = .next (onCpu { s.cpu with cycles := i.baseCycles } s) := by
  rw [exec_meaning, h]; rfl

/-- An instruction that makes no access at its effective address goes to the state after the pointer reads of its mode. -/
theorem exec_of_noAccess {m : Mnemonic} {i : Instr} (hi : i.mnemonic = m) (run : ∀ o n, meaning m o n = execNoAccess o n)
    (s : State) : exec i s = .next (onCpu { s.cpu with cycles := i.baseCycles } (resolve i.operand s).state) := by
  rw [exec_meaning, hi, run, execNoAccess, finish, setCycles_onCpu, resolve_cpu]

/-- Settles O14: a NOP and LAS discard their operand and may owe one cycle more; ANE and LXA discard an immediate operand
and JAM has none, so their modes signal no extra cycle; the others resolve their mode only. -/
theorem nopResult : Obligations.NopResult := by
  intro i s
  refine ⟨?discards, ?noAccess⟩
  case discards =>
    rintro (nop | jam | ane | lxa | las)
    · exact exec_of_discard nop (fun _ _ => rfl) s
    · rw [exec_of_jam jam, operandOf, modeExtra, operand_of_jam jam]; rfl
    · rw [exec_of_discard ane (fun _ _ => rfl), modeExtra_of_ane_lxa (.inl ane)]; rfl
    · rw [exec_of_discard lxa (fun _ _ => rfl), modeExtra_of_ane_lxa (.inr lxa)]; rfl
    · exact exec_of_discard las (fun _ _ => rfl) s
  case noAccess =>
    rintro (sha | shx | shy | tas)
    · exact exec_of_noAccess sha (fun _ _ => rfl) s
    · exact exec_of_noAccess shx (fun _ _ => rfl) s
    · exact exec_of_noAccess shy (fun _ _ => rfl) s
    · exact exec_of_noAccess tas (fun _ _ => rfl) s

end Sys2Proof.Machine
end

section
/-! SUPPORT. The unofficial instructions that combine two operations: a read-modify-write and then an operation on A
(O15), and a bitwise AND and then a second operation (O16), each with its whole next state. -/

namespace Sys2Proof

/-- The instructions that modify a byte of memory and then combine it with A (R306 to R311). -/
def Mnemonic.combines (m : Mnemonic) : Bool := [.slo, .rla, .sre, .rra, .dcp, .isc].contains m

namespace Machine

/-! An instruction that modifies a byte of memory and then combines it with A. -/

/-- Every form of a combining instruction has its place in memory. -/
theorem place_of_combines {i : Instr} (h : i.mnemonic.combines = true) (s : State) :
    ∃ ea, (resolve i.operand s).place = .mem ea := by
  cases i <;> cases h <;> exact ⟨_, rfl⟩

/-- A combining instruction whose operation is the change `g` of the CPU makes one read and one write, of `f m C`, at its
effective address, then changes the CPU by `g`, and owes its base cost. -/
theorem exec_of_combines {m : Mnemonic} {i : Instr} {f : Byte → Bool → Byte} {op : Byte → Byte → State → State}
    {g : Byte → Byte → Cpu → Cpu} (hi : i.mnemonic = m) (combines : m.combines = true)
    (run : ∀ o n, meaning m o n = execModify o n f op) (change : ∀ b r u, op b r u = onCpu (g b r u.cpu) u) (s : State) :
    let r := resolve i.operand s
    let b := readPlace r.place r.state
    let v := f b.1 s.cpu.p.c
    ∃ ea, r.place = .mem ea ∧
      exec i s = .next (onCpu { g b.1 v s.cpu with cycles := i.baseCycles } (memWrite ea v b.2)) := by
  intro r b v
  obtain ⟨ea, place⟩ := place_of_combines (hi ▸ combines) s
  have write : writePlace r.place v b.2 = memWrite ea v b.2 := by rw [place]; rfl
  have cpu : (memWrite ea v b.2).cpu = s.cpu := by simp [b, r]
  refine ⟨ea, place, ?_⟩
  rw [exec_of_modify hi run change s, write, cpu]

/-- Where the result is the number `num` of the operand and C, the carry is a condition on the operand, and `join` of A
and the result goes to A with its Z and N, the whole next state. -/
theorem exec_of_combines_resultInA {m : Mnemonic} {i : Instr} {f : Byte → Bool → Byte} {op : Byte → Byte → State → State}
    {num : Nat → Bool → Nat} {carry : Nat → Bool} {join : Byte → Byte → Byte} (hi : i.mnemonic = m)
    (combines : m.combines = true) (run : ∀ o n, meaning m o n = execModify o n f op)
    (value : ∀ b k, f b k = BitVec.ofNat 8 (num b.toNat k))
    (change : ∀ b r u, op b r u = resultInA (join u.cpu.a r) (u.mapP fun p => { p with c := carry b.toNat }))
    (s : State) :
    let r := resolve i.operand s
    let b := readPlace r.place r.state
    let v := BitVec.ofNat 8 (num b.1.toNat s.cpu.p.c)
    let k := join s.cpu.a v
    ∃ ea, r.place = .mem ea ∧ exec i s = .next { memWrite ea v b.2 with cpu := { s.cpu with
      a := k, p := { s.cpu.p with c := carry b.1.toNat, z := decide (k = 0), n := k.getLsbD 7 }
      cycles := i.baseCycles } } := by
  intro r b v k
  obtain ⟨ea, place, result⟩ := exec_of_combines (g := fun b r c => { c with
    a := join c.a r, p := { c.p.setZN (join c.a r) with c := carry b.toNat } }) hi combines run change s
  refine ⟨ea, place, ?_⟩
  rw [result, value]
  rfl

/-! SLO, RLA and SRE: a carry from the operand, then a bitwise operation into A (R306 to R308). -/

theorem opSlo_eq (b r : Byte) (s : State) :
    opSlo b r s = resultInA (s.cpu.a ||| r) (s.mapP fun p => { p with c := decide (128 ≤ b.toNat) }) := by
  rw [← byte_bit7_eq]; rfl

theorem opRla_eq (b r : Byte) (s : State) :
    opRla b r s = resultInA (s.cpu.a &&& r) (s.mapP fun p => { p with c := decide (128 ≤ b.toNat) }) := by
  rw [← byte_bit7_eq]; rfl

theorem opSre_eq (b r : Byte) (s : State) :
    opSre b r s = resultInA (s.cpu.a ^^^ r) (s.mapP fun p => { p with c := decide (b.toNat % 2 = 1) }) := by
  rw [← byte_bit0_eq]; rfl

/-! RRA, DCP and ISC use their result as a number (R309 to R311). -/

/-- A byte's bit 0, as a number, is the number's parity. -/
theorem byte_bit0_toNat (b : Byte) : (b.getLsbD 0).toNat = b.toNat % 2 := by
  rw [← BitVec.testBit_toNat, Nat.toNat_testBit, pow_zero, Nat.div_one]

theorem incByte_toNat (b : Byte) (k : Bool) : (incByte b k).toNat = (b.toNat + 1) % 256 := BitVec.toNat_add b 1

theorem decByte_toNat (b : Byte) (k : Bool) : (decByte b k).toNat = (b.toNat + 255) % 256 := by
  rw [decByte, ← byte_down_eq, BitVec.toNat_ofNat]

/-- The rotated operand fits in a byte. -/
theorem rorByte_toNat (b : Byte) (k : Bool) : (rorByte b k).toNat = b.toNat / 2 + 128 * k.toNat := by
  have hb := b.isLt
  have hk := k.toNat_le
  rw [rorByte_eq, BitVec.toNat_ofNat]
  omega

/-- Settles O15: SLO, RLA and SRE end with a bitwise operation into A, RRA with ADC, DCP with CMP and ISC with SBC. -/
theorem memoryCombineResult : Obligations.MemoryCombineResult := by
  intro i s r m x a done combine rotl
  refine ⟨fun hi => ?slo, fun hi => ?rla, fun hi => ?sre, fun hi => ?rra, fun hi => ?dcp, fun hi => ?isc⟩
  case slo =>
    exact exec_of_combines_resultInA (num := fun x _ => 2 * x) (carry := fun x => decide (128 ≤ x))
      (join := fun a v => a ||| v) hi rfl (fun _ _ => rfl) aslByte_eq opSlo_eq s
  case rla =>
    exact exec_of_combines_resultInA (num := fun x k => 2 * x + k.toNat) (carry := fun x => decide (128 ≤ x))
      (join := fun a v => a &&& v) hi rfl (fun _ _ => rfl) rolByte_eq opRla_eq s
  case sre =>
    exact exec_of_combines_resultInA (num := fun x _ => x / 2) (carry := fun x => decide (x % 2 = 1))
      (join := fun a v => a ^^^ v) hi rfl (fun _ _ => rfl) lsrByte_eq opSre_eq s
  case rra =>
    intro v u g
    obtain ⟨ea, place, result⟩ := exec_of_combines (g := fun b r c => c.add r (b.getLsbD 0)) hi rfl (fun _ _ => rfl)
      (fun _ _ _ => addToA_onCpu _ _ _) s
    refine ⟨ea, place, ?_⟩
    rw [result, Cpu.add_eq, byte_bit0_toNat, rorByte_toNat, rorByte_eq]
    rfl
  case dcp =>
    intro v
    have value : decByte m.1 s.cpu.p.c = BitVec.ofNat 8 v := (BitVec.toNat_eq_nat.mp (decByte_toNat _ _)).2
    have equal : s.cpu.a = decByte m.1 s.cpu.p.c ↔ v = a := by
      rw [eq_comm, ← BitVec.toNat_inj, decByte_toNat]
    obtain ⟨ea, place, result⟩ := exec_of_combines (g := fun _ r c => { c with p := c.p.compare c.a r }) hi rfl
      (fun _ _ => rfl) (fun _ _ _ => rfl) s
    refine ⟨ea, place, ?_⟩
    rw [result, Flags.compare_eq, decide_eq_decide.mpr equal, decByte_toNat, value]
    rfl
  case isc =>
    intro v d g
    have value : incByte m.1 s.cpu.p.c = BitVec.ofNat 8 v := (BitVec.toNat_eq_nat.mp (incByte_toNat _ _)).2
    obtain ⟨ea, place, result⟩ := exec_of_combines (g := fun _ r c => c.add (r ^^^ 0xFF) c.p.c) hi rfl (fun _ _ => rfl)
      (fun _ _ _ => addToA_onCpu _ _ _) s
    refine ⟨ea, place, ?_⟩
    rw [result, Cpu.add_complement_eq, incByte_toNat, value]
    rfl

/-! ANC, ALR, ARR and AXS: a bitwise AND and a second operation, with an immediate byte (R312 to R315). -/

/-- Settles O16: each is one change of the CPU by its immediate byte; ALR and ARR shift and rotate A AND the byte, AXS
compares as numbers. -/
theorem immediateCombineResult : Obligations.ImmediateCombineResult := by
  intro m s t k zn half rot diff
  have half_eq : t >>> 1 = half := lsrByte_eq t s.cpu.p.c
  have rot_eq : rorByte t s.cpu.p.c = rot := rorByte_eq t s.cpu.p.c
  refine ⟨?anc, ?alr, ?arr, ?axs⟩
  case anc =>
    rintro i (rfl | rfl)
    · exact exec_anc0B m s
    · exact exec_anc2B m s
  case alr => rw [← half_eq, ← byte_bit0_eq]; exact exec_alr m s
  case arr => rw [← rot_eq]; exact exec_arr m s
  case axs => exact exec_axs m s

end Machine

end Sys2Proof
end

section
/-! SUPPORT. The eight PPU ports (R341 to R353): the scroll registers as numbers of the byte written (R347, R348), the
Control, Mask, Status and OAM ports (R342 to R346, R351), the Data port (R349, R350, R352), and that repeating a
sequence of Scroll writes after a Status read changes nothing (R353). -/

namespace Sys2Proof.Machine

/-! One equation per port (R341). -/

section
variable (d : Byte) (s : State)

theorem portRead_status : portRead 2 s = readStatus s := rfl
theorem portRead_oamData : portRead 4 s = readOamData s := rfl
theorem portRead_data : portRead 7 s = readData s := rfl
theorem portWrite_control : portWrite 0 d s = s.mapPpu (writeControl d) := rfl
theorem portWrite_mask : portWrite 1 d s = s.mapPpu (writeMask d) := rfl
theorem portWrite_status : portWrite 2 d s = s := rfl
theorem portWrite_oamAddr : portWrite 3 d s = s.mapPpu (writeOamAddr d) := rfl
theorem portWrite_oamData : portWrite 4 d s = s.mapPpu (writeOamData d) := rfl
theorem portWrite_scroll : portWrite 5 d s = s.mapPpu (writeScroll d) := rfl
theorem portWrite_address : portWrite 6 d s = s.mapPpu (writeAddress d) := rfl
theorem portWrite_data : portWrite 7 d s = writeData d s := rfl

end

/-- A read of a write-only port gives OPEN_BUS_VALUE and changes nothing (R351). -/
theorem portRead_writeOnly {n : BitVec 3} (s : State) (h : n = 0 ∨ n = 1 ∨ n = 3 ∨ n = 5 ∨ n = 6) :
    portRead n s = (0x00, s) := by
  obtain rfl | rfl | rfl | rfl | rfl := h <;> rfl

/-! The fields of a scroll register that was put together from its fields (R33). -/

section
variable (fy : BitVec 3) (ny nx : BitVec 1) (cy cx : BitVec 5)

@[simp] theorem fineY_scroll : fineY (scroll fy ny nx cy cx) = fy :=
  BitVec.eq_of_toNat_eq (by rw [fineY_toNat, scroll_toNat]; omega)

@[simp] theorem ntY_scroll : ntY (scroll fy ny nx cy cx) = ny :=
  BitVec.eq_of_toNat_eq (by rw [ntY_toNat, scroll_toNat]; omega)

@[simp] theorem ntX_scroll : ntX (scroll fy ny nx cy cx) = nx :=
  BitVec.eq_of_toNat_eq (by rw [ntX_toNat, scroll_toNat]; omega)

@[simp] theorem coarseY_scroll : coarseY (scroll fy ny nx cy cx) = cy :=
  BitVec.eq_of_toNat_eq (by rw [coarseY_toNat, scroll_toNat]; omega)

@[simp] theorem coarseX_scroll : coarseX (scroll fy ny nx cy cx) = cx :=
  BitVec.eq_of_toNat_eq (by rw [coarseX_toNat, scroll_toNat]; omega)

end

/-! What a port write puts in place of a field of `t`, as a number. -/

section
variable (t : BitVec 15) (d : Byte)

/-- The three low bits of a byte, which a Scroll write takes as a fine offset (R347). -/
theorem byte_low3_toNat : (d.extractLsb' 0 3).toNat = d.toNat % 8 := by rw [extract_toNat]; omega

/-- The five high bits of a byte, which a Scroll write takes as a coarse offset (R347). -/
theorem byte_high5_toNat : (d.extractLsb' 3 5).toNat = d.toNat / 8 := by rw [extract_toNat]; omega

/-- R342: bits 1:0 of the byte become `nt_y` and `nt_x`. -/
theorem scroll_nametable_eq :
    scroll (fineY t) (d.extractLsb' 1 1) (d.extractLsb' 0 1) (coarseY t) (coarseX t) =
      BitVec.ofNat 15 (t.toNat / 4096 * 4096 + d.toNat % 4 * 1024 + t.toNat % 1024) := by
  refine BitVec.eq_of_toNat_eq ?_
  simp only [scroll_toNat, fineY_toNat, coarseY_toNat, coarseX_toNat, extract_toNat, BitVec.toNat_ofNat]
  omega

/-- R347, first write: the five high bits of the byte become `coarse_x`. -/
theorem scroll_coarseX_eq :
    scroll (fineY t) (ntY t) (ntX t) (coarseY t) (d.extractLsb' 3 5) =
      BitVec.ofNat 15 (t.toNat / 32 * 32 + d.toNat / 8) := by
  refine BitVec.eq_of_toNat_eq ?_
  simp only [scroll_toNat, fineY_toNat, ntY_toNat, ntX_toNat, coarseY_toNat, byte_high5_toNat, BitVec.toNat_ofNat]
  omega

/-- R347, second write: the three low bits of the byte become `fine_y`, the five high bits `coarse_y`. -/
theorem scroll_fineY_coarseY_eq :
    scroll (d.extractLsb' 0 3) (ntY t) (ntX t) (d.extractLsb' 3 5) (coarseX t) =
      BitVec.ofNat 15 (d.toNat % 8 * 4096 + t.toNat / 1024 % 4 * 1024 + d.toNat / 8 * 32 + t.toNat % 32) := by
  have nametable : t.toNat / 1024 % 4 = t.toNat / 2048 % 2 * 2 + t.toNat / 1024 % 2 := by omega
  refine BitVec.eq_of_toNat_eq ?_
  simp only [scroll_toNat, ntY_toNat, ntX_toNat, coarseX_toNat, byte_low3_toNat, byte_high5_toNat, BitVec.toNat_ofNat,
    nametable]
  omega

/-- R348, first write: bits 5:0 of the byte become bits 13:8, and bit 14 is cleared. -/
theorem address_high_eq :
    (0#1 ++ (d.extractLsb' 0 6 ++ t.extractLsb' 0 8) : BitVec 15) =
      BitVec.ofNat 15 (d.toNat % 64 * 256 + t.toNat % 256) := by
  refine BitVec.eq_of_toNat_eq ?_
  simp only [append_toNat, extract_toNat, BitVec.toNat_ofNat]
  omega

/-- R348, second write: the byte becomes bits 7:0. -/
theorem address_low_eq :
    t.extractLsb' 8 7 ++ d = BitVec.ofNat 15 (t.toNat / 256 * 256 + d.toNat) := by
  refine BitVec.eq_of_toNat_eq ?_
  simp only [append_toNat, extract_toNat, BitVec.toNat_ofNat]
  omega

theorem fineX_eq : d.extractLsb' 0 3 = BitVec.ofNat 3 d.toNat :=
  BitVec.eq_of_toNat_eq (byte_low3_toNat d)

end

/-! The Scroll and Address ports, by the write toggle. -/

section
variable (d : Byte) {p : Ppu}

theorem writeScroll_first (h : p.w = false) :
    writeScroll d p = { p with
      fineX := d.extractLsb' 0 3
      t := scroll (fineY p.t) (ntY p.t) (ntX p.t) (coarseY p.t) (d.extractLsb' 3 5)
      w := true } := if_neg (by simp [h])

theorem writeScroll_second (h : p.w = true) :
    writeScroll d p = { p with
      t := scroll (d.extractLsb' 0 3) (ntY p.t) (ntX p.t) (d.extractLsb' 3 5) (coarseX p.t), w := false } := if_pos h

theorem writeAddress_first (h : p.w = false) :
    writeAddress d p = { p with t := (0#1 ++ (d.extractLsb' 0 6 ++ p.t.extractLsb' 0 8) : BitVec 15), w := true } :=
  if_neg (by simp [h])

theorem writeAddress_second (h : p.w = true) :
    writeAddress d p = { p with t := p.t.extractLsb' 8 7 ++ d, v := p.t.extractLsb' 8 7 ++ d, w := false } := if_pos h

end

/-- Settles O31: by the port and the toggle, each new field being a number of the byte and of `t`. -/
theorem scrollAddressPorts : Obligations.ScrollAddressPorts := by
  intro d s t n
  rw [portWrite_scroll, portWrite_address]
  refine ⟨fun h => ?scrollFirst, fun h => ?scrollSecond, fun h => ?addressFirst, fun h => ?addressSecond⟩
  case scrollFirst => rw [State.mapPpu, writeScroll_first d h, scroll_coarseX_eq, fineX_eq]
  case scrollSecond => rw [State.mapPpu, writeScroll_second d h, scroll_fineY_coarseY_eq]
  case addressFirst => rw [State.mapPpu, writeAddress_first d h, address_high_eq]
  case addressSecond => rw [State.mapPpu, writeAddress_second d h, address_low_eq]

/-! Repeating a sequence of Scroll writes (R353). -/

/-- What Scroll writes never change: `v` and the nametable bits of `t`. -/
structure SameScrollBase (p q : Ppu) : Prop where
  v : q.v = p.v
  ntY : ntY q.t = ntY p.t
  ntX : ntX q.t = ntX p.t

/-- The scroll state: all that Scroll writes change and what they keep of `v` and `t`. -/
structure SameScroll (p q : Ppu) : Prop where
  t : q.t = p.t
  v : q.v = p.v
  fineX : q.fineX = p.fineX
  w : q.w = p.w

theorem SameScrollBase.trans {p q r : Ppu} (h : SameScrollBase p q) (k : SameScrollBase q r) : SameScrollBase p r :=
  ⟨k.v.trans h.v, k.ntY.trans h.ntY, k.ntX.trans h.ntX⟩

theorem writeScroll_base (d : Byte) (p : Ppu) : SameScrollBase p (writeScroll d p) := by
  cases h : p.w with
  | false => rw [writeScroll_first d h]; exact ⟨rfl, ntY_scroll .., ntX_scroll ..⟩
  | true => rw [writeScroll_second d h]; exact ⟨rfl, ntY_scroll .., ntX_scroll ..⟩

theorem scrollWrites_base (ds : List Byte) (p : Ppu) : SameScrollBase p (scrollWrites ds p) := by
  induction ds generalizing p with
  | nil => exact ⟨rfl, rfl, rfl⟩
  | cons d ds ih => exact (writeScroll_base d p).trans (ih _)

/-- A Scroll write depends on the scroll state only. -/
theorem SameScroll.writeScroll {p q : Ppu} (h : SameScroll p q) (d : Byte) :
    SameScroll (writeScroll d p) (writeScroll d q) := by
  cases w : p.w with
  | false =>
    rw [writeScroll_first d w, writeScroll_first d (h.w.trans w)]
    exact ⟨by simp only [h.t], h.v, rfl, rfl⟩
  | true =>
    rw [writeScroll_second d w, writeScroll_second d (h.w.trans w)]
    exact ⟨by simp only [h.t], h.v, h.fineX, rfl⟩

theorem SameScroll.scrollWrites {p q : Ppu} (h : SameScroll p q) (ds : List Byte) :
    SameScroll (scrollWrites ds p) (scrollWrites ds q) := by
  induction ds generalizing p q with
  | nil => exact h
  | cons d ds ih => exact ih (h.writeScroll d)

/-- A pair of Scroll writes replaces every field of the scroll state but its base. -/
theorem SameScrollBase.writePair {p q : Ppu} (h : SameScrollBase p q) (hp : p.w = false) (hq : q.w = false)
    (d e : Byte) : SameScroll (writeScroll e (writeScroll d p)) (writeScroll e (writeScroll d q)) := by
  rw [writeScroll_first d hp, writeScroll_first d hq, writeScroll_second e rfl, writeScroll_second e rfl]
  exact ⟨by simp only [ntY_scroll, ntX_scroll, coarseX_scroll, h.ntY, h.ntX], h.v, rfl, rfl⟩

/-- From the scroll state the writes gave, with the toggle clear, the same writes give that scroll state: one write alone
sets the fields it set before, and from two on the first pair settles the scroll state. -/
theorem scrollWrites_repeat (ds : List Byte) {p q : Ppu} (hp : p.w = false)
    (h : SameScroll { scrollWrites ds p with w := false } q) :
    SameScroll (scrollWrites ds p) (scrollWrites ds q) := by
  obtain ⟨ht, hv, hx, hq⟩ := h
  have base : SameScrollBase p q := by
    obtain ⟨v, ny, nx⟩ := scrollWrites_base ds p
    exact ⟨hv.trans v, ht ▸ ny, ht ▸ nx⟩
  match ds with
  | [] => exact ⟨ht, hv, hx, hq.trans hp.symm⟩
  | [d] =>
    simp only [scrollWrites, writeScroll_first d hp] at ht
    simp only [scrollWrites, writeScroll_first d hp, writeScroll_first d hq, ht]
    exact ⟨by simp, base.v, rfl, rfl⟩
  | d :: e :: rest => exact (base.writePair hp hq d e).scrollWrites rest

/-- Settles O33: the Status read clears the toggle and leaves the rest of the scroll state. -/
theorem toggleRoundTrip : Obligations.ToggleRoundTrip := by
  intro ds s hw p q
  have afterStatus : SameScroll { p with w := false } (portRead 2 { s with ppu := p }).2.ppu := by
    rw [portRead_status]
    exact ⟨rfl, rfl, rfl, rfl⟩
  obtain ⟨t, v, fineX, w⟩ := scrollWrites_repeat ds hw afterStatus
  exact ⟨t, v, fineX, w⟩

/-! The Control, Mask, Status and OAM ports. -/

/-- The byte of a Status read: the three flags over the low five bits of the read buffer (R344). -/
theorem Ppu.statusByte_toNat (p : Ppu) :
    p.statusByte.toNat = 128 * p.vblank.toNat + 64 * p.spr0Hit.toNat + 32 * p.overflow.toNat + p.dataBuffer.toNat % 32 := by
  simp only [Ppu.statusByte, append_toNat, BitVec.toNat_ofBool, extract_toNat]
  omega

/-- Settles O30: by the port; the new `t` of a Control write and the byte of a Status read are numbers of their parts. -/
theorem simplePorts : Obligations.SimplePorts := by
  intro d s t
  refine ⟨?control, portWrite_mask d s, Ppu.statusByte_toNat s.ppu, congrArg Prod.snd (portRead_status s),
    portWrite_status d s, portWrite_oamAddr d s, ?oamData, portRead_oamData s, fun _ => portRead_writeOnly s⟩
  case control => rw [portWrite_control, State.mapPpu, writeControl, scroll_nametable_eq]
  case oamData => rw [portWrite_oamData, byte_up_eq]; rfl

/-! The Data port. -/

/-- The step of `v` after a Data access (R352). -/
theorem Ppu.stepV_eq (p : Ppu) :
    p.stepV = { p with v := BitVec.ofNat 15 (p.v.toNat + if p.ctrl.getLsbD 2 then 32 else 1) } := by
  have step : p.v + (if p.incBy32 then 32 else 1) =
      BitVec.ofNat 15 (p.v.toNat + if p.ctrl.getLsbD 2 then 32 else 1) := by
    rw [Ppu.incBy32]
    split <;> bv_omega
  rw [Ppu.stepV, step]

/-- The Data port is direct in palette memory, whatever bit 14 of `v` (R349). -/
theorem dataDirect_iff (v : BitVec 15) : 0x3F00 ≤ (v.setWidth 14).toNat ↔ 0x3F00 ≤ v.toNat % 0x4000 := by
  rw [BitVec.toNat_setWidth]

/-- A PPU-bus write leaves `v` and Control, so the step after it is that of the state before it. -/
theorem ppuWrite_stepV (a : Word) (d : Byte) (s : State) :
    (ppuWrite a d s).ppu.stepV = { (ppuWrite a d s).ppu with v := s.ppu.stepV.v } := by
  rw [ppuWrite_ppu]
  rfl

/-- Settles O32: a read takes its byte from the bus or from the buffer, and both accesses end with the step of `v`. -/
theorem dataPort : Obligations.DataPort := by
  intro d s v next r t
  have addr : s.ppu.v.setWidth 16 = BitVec.ofNat 16 v := (BitVec.ofNat_toNat 16 s.ppu.v).symm
  have stepped : s.ppu.stepV.v = next := by rw [Ppu.stepV_eq]
  refine ⟨?read, ?write⟩
  case read =>
    simp only [portRead_data, readData, addr, dataDirect_iff, decide_eq_true_eq, State.mapPpu, Ppu.stepV_eq, ppuRead_ppu]
    rfl
  case write => rw [portWrite_data, writeData, addr, State.mapPpu, ppuWrite_stepV, stepped]

end Sys2Proof.Machine
end

section
/-! SUPPORT. The raster position after a tick (O34), and over a whole frame (O35). -/

namespace Sys2Proof.Machine

/-! The position after a tick (R382, R432). -/

/-- The dot a tick starts from: on an odd frame with rendering enabled (0, 0) is skipped (R382). -/
def Pos.start (rendering : Bool) (q : Pos) : Nat :=
  if q.line = 0 ∧ q.dot = 0 ∧ q.odd = true ∧ rendering = true then 1 else q.dot

section
variable {rendering : Bool} {q : Pos}

theorem Pos.next_inLine (h : q.start rendering < 340) :
    q.next rendering = { q with dot := q.start rendering + 1 } :=
  if_pos h

theorem Pos.next_lineEnd (h : 340 ≤ q.start rendering) (k : q.line < 260) :
    q.next rendering = { q with dot := 0, line := q.line + 1 } :=
  (if_neg (Nat.not_le.mpr (Nat.lt_succ_of_le h))).trans (if_pos k)

theorem Pos.next_frameEnd (h : 340 ≤ q.start rendering) (k : 260 ≤ q.line) :
    q.next rendering = { line := -1, dot := 0, odd := !q.odd, complete := true } :=
  (if_neg (Nat.not_le.mpr (Nat.lt_succ_of_le h))).trans (if_neg (by omega))

theorem Pos.start_eq_dot (h : ¬ (q.line = 0 ∧ q.dot = 0 ∧ q.odd = true ∧ rendering = true)) :
    q.start rendering = q.dot := if_neg h

end

/-- Settles O34: by the end of the line and the end of the frame, for the dot after the skip. -/
theorem positionAdvance : Obligations.PositionAdvance := by
  intro s rendering c p
  have goes {q : Pos} (h : s.ppu.pos.next rendering = q) :
      p.cycle = q.dot ∧ p.scanline = q.line ∧ p.frameComplete = q.complete ∧ p.oddFrame = q.odd := by
    obtain rfl : p.pos = q := (ppuTick_pos s).trans h
    exact ⟨rfl, rfl, rfl, rfl⟩
  exact ⟨fun h => goes (Pos.next_inLine h), fun h k => goes (Pos.next_lineEnd h k),
    fun h k => goes (Pos.next_frameEnd h k)⟩

/-! The positions of a frame in a row (R436): 262 lines of 341 dots, from the pre-render line on. -/

/-- The `i`-th position of a frame. -/
def Pos.nth (odd complete : Bool) (i : Nat) : Pos := ⟨(i / 341 : Nat) - 1, i % 341, odd, complete⟩

section
variable (rendering odd complete : Bool)

/-- From a position of the frame that is not skipped a tick goes to the next one. -/
theorem Pos.next_nth {i : Nat} (h : i + 1 < 341 * 262) (stays : (odd && rendering) = true → i ≠ 341) :
    (Pos.nth odd complete i).next rendering = Pos.nth odd complete (i + 1) := by
  have start : (Pos.nth odd complete i).start rendering = i % 341 := by
    refine Pos.start_eq_dot ?_
    rintro ⟨line, dot, isOdd, isRendering⟩
    simp only [Pos.nth] at line dot isOdd
    exact stays (by simp [isOdd, isRendering]) (by omega)
  by_cases inLine : i % 341 < 340
  case pos =>
    rw [Pos.next_inLine (by omega), start]
    simp only [Pos.nth, Pos.mk.injEq, and_true]
    omega
  case neg =>
    rw [Pos.next_lineEnd (by omega) (by simp only [Pos.nth]; omega)]
    simp only [Pos.nth, Pos.mk.injEq, and_true]
    omega

/-- From the skipped position, number 341, a tick goes to the next but one (R382). -/
theorem Pos.next_nth_skip : (Pos.nth true complete 341).next true = Pos.nth true complete 343 := rfl

/-- The last tick of a frame completes it and starts the next one (R432). -/
theorem Pos.next_nth_last : (Pos.nth odd complete (341 * 262 - 1)).next rendering = ⟨-1, 0, !odd, true⟩ := by
  have start : (Pos.nth odd complete (341 * 262 - 1)).start rendering = 340 := Pos.start_eq_dot (by simp [Pos.nth])
  exact Pos.next_frameEnd start.ge (Int.le_refl 260)

/-- How many positions a frame has passed after `k` ticks: where (0, 0) is skipped, tick 342 passes two. -/
def passed : (skips : Bool) → (k : Nat) → Nat
  | false, k => k
  | true, k => if k < 342 then k else k + 1

/-- The number of ticks of a frame (R436). -/
def frameTicks (skips : Bool) : Nat := if skips = true then 341 * 262 - 1 else 341 * 262

/-- Inside a frame a tick passes as `passed` counts. -/
theorem Pos.next_passed {k : Nat} (h : k + 1 < frameTicks (odd && rendering)) :
    (Pos.nth odd complete (passed (odd && rendering) k)).next rendering =
      Pos.nth odd complete (passed (odd && rendering) (k + 1)) := by
  cases skips : odd && rendering with
  | false =>
    rw [skips] at h
    exact Pos.next_nth rendering odd complete h (by simp [skips])
  | true =>
    rw [skips] at h
    replace h : k + 1 < 341 * 262 - 1 := h
    obtain before | here | after : k < 341 ∨ k = 341 ∨ 342 ≤ k := by omega
    · rw [passed, passed, if_pos (by omega), if_pos (by omega)]
      exact Pos.next_nth rendering odd complete (by omega) (by omega)
    · obtain ⟨rfl, rfl⟩ := Bool.and_eq_true_iff.mp skips
      subst here
      exact Pos.next_nth_skip complete
    · rw [passed, passed, if_neg (by omega), if_neg (by omega)]
      exact Pos.next_nth rendering odd complete (by omega) (by omega)

/-- Before its last tick a frame has passed all its positions but one. -/
theorem passed_last (skips : Bool) : passed skips (frameTicks skips - 1) = 341 * 262 - 1 := by
  cases skips <;> rfl

end

theorem ppuTicks_succ (n : Nat) (s : State) : ppuTicks (n + 1) s = ppuTick (ppuTicks n s) := by
  induction n generalizing s with
  | zero => rfl
  | succ n ih => exact ih (ppuTick s)

theorem ppuTicks_rendering (n : Nat) (s : State) : (ppuTicks n s).ppu.rendering = s.ppu.rendering := by
  induction n generalizing s with
  | zero => rfl
  | succ n ih =>
    refine (ih (ppuTick s)).trans ?_
    unfold Ppu.rendering Ppu.showBg Ppu.showSpr
    rw [ppuTick_mask]

theorem ppuTicks_succ_pos (n : Nat) (s : State) :
    (ppuTicks (n + 1) s).ppu.pos = (ppuTicks n s).ppu.pos.next s.ppu.rendering := by
  rw [ppuTicks_succ, ppuTick_pos, ppuTicks_rendering]

section
variable {s : State} (start : s.ppu.pos = Pos.nth s.ppu.oddFrame false 0)
include start

/-- The position after `k` ticks of a frame. -/
theorem ppuTicks_pos {k : Nat} (h : k < frameTicks (s.ppu.oddFrame && s.ppu.rendering)) :
    (ppuTicks k s).ppu.pos = Pos.nth s.ppu.oddFrame false (passed (s.ppu.oddFrame && s.ppu.rendering) k) := by
  induction k with
  | zero =>
    refine start.trans (congrArg _ ?_)
    cases s.ppu.oddFrame && s.ppu.rendering <;> rfl
  | succ k ih => rw [ppuTicks_succ_pos, ih (by omega), Pos.next_passed _ _ _ h]

/-- The position after a whole frame. -/
theorem ppuTicks_frame_pos :
    (ppuTicks (frameTicks (s.ppu.oddFrame && s.ppu.rendering)) s).ppu.pos = ⟨-1, 0, !s.ppu.oddFrame, true⟩ := by
  have positive : 0 < frameTicks (s.ppu.oddFrame && s.ppu.rendering) := by
    cases s.ppu.oddFrame && s.ppu.rendering <;> decide
  rw [← Nat.sub_add_cancel positive, ppuTicks_succ_pos, ppuTicks_pos start (Nat.sub_lt positive Nat.one_pos), passed_last,
    Pos.next_nth_last]

end

/-- Settles O35: after `k` ticks of the frame the position is the one that many positions on, and the last tick leaves the
last position. -/
theorem frameLength : Obligations.FrameLength := by
  intro s line dot complete rendering n
  have start : s.ppu.pos = Pos.nth s.ppu.oddFrame false 0 := by
    simp [Ppu.pos, Pos.nth, line, dot, complete]
  have ticks : n = frameTicks (s.ppu.oddFrame && rendering) := by
    simp only [n, frameTicks, Bool.and_eq_true]
  obtain ⟨lineEnd, dotEnd, oddEnd, completeEnd⟩ := Pos.mk.inj (ppuTicks_frame_pos start)
  rw [ticks]
  exact ⟨fun k h => congrArg Pos.complete (ppuTicks_pos start h), completeEnd, lineEnd, dotEnd, oddEnd⟩

end Sys2Proof.Machine
end

section
/-! SUPPORT. The steps of a PPU tick at each position (O36), and what they do to the status flags, the NMI request and `v`
(O37, O44). -/

namespace Sys2Proof.Machine

/-! The tick and its skip (R380, R382). -/

/-- The condition of the skip: (0, 0) of an odd frame with rendering enabled (R382). -/
def Ppu.skips (p : Ppu) : Prop := p.scanline = 0 ∧ p.cycle = 0 ∧ p.oddFrame = true ∧ p.rendering = true

theorem oddFrameSkip_of_skips {p : Ppu} (h : p.skips) : oddFrameSkip p = { p with cycle := 1 } := if_pos h

theorem oddFrameSkip_of_not_skips {p : Ppu} (h : ¬ p.skips) : oddFrameSkip p = p := if_neg h

/-- Without the skip a tick makes the steps of its position and advances. -/
theorem ppuTick_of_not_skips {s : State} (h : ¬ s.ppu.skips) :
    ppuTick s = (positionSteps s.ppu.scanline s.ppu.cycle s).mapPpu advance := by
  have stays : s.mapPpu oddFrameSkip = s := by rw [State.mapPpu, oddFrameSkip_of_not_skips h]
  unfold ppuTick
  simp only [stays]

/-- A tick that skips is the tick from (0, 1). -/
theorem ppuTick_of_skips {s : State} (h : s.ppu.skips) :
    ppuTick s = ppuTick { s with ppu := { s.ppu with cycle := 1 } } := by
  have skipped : s.mapPpu oddFrameSkip = { s with ppu := { s.ppu with cycle := 1 } } := by
    rw [State.mapPpu, oddFrameSkip_of_skips h]
  rw [ppuTick_of_not_skips (s := { s with ppu := { s.ppu with cycle := 1 } }) (fun k => Nat.one_ne_zero k.2.1)]
  unfold ppuTick
  simp only [skipped]

/-- Only dot 0 of line 0 is ever skipped. -/
theorem Ppu.not_skips_of_dot {p : Ppu} (h : 1 ≤ p.cycle) : ¬ p.skips := by
  rintro ⟨-, dot, -⟩
  omega

theorem Ppu.not_skips_of_line {p : Ppu} (h : p.scanline ≠ 0) : ¬ p.skips := fun k => h k.1

/-! The steps whose condition holds at a position, for windows of the cycle `cy` on a scanline `sl` (R380). -/

section
variable {c : Prop} [Decidable c] (f : State → State) (s : State)

theorem doIf_decide : doIf (decide c) f s = if c then f s else s := by simp only [doIf, decide_eq_true_eq]

theorem doIf_pos (h : c) : doIf (decide c) f s = f s := (doIf_decide f s).trans (if_pos h)

theorem doIf_neg (h : ¬ c) : doIf (decide c) f s = s := (doIf_decide f s).trans (if_neg h)

end

/-- `renderSteps` with each condition as one proposition. -/
theorem renderSteps_eq (sl : Int) (cy : Nat) (s : State) :
    renderSteps sl cy s =
      (doIf (decide (0 ≤ sl ∧ cy = 340)) fetchSprites <|
      doIf (decide (0 ≤ sl ∧ cy = 257)) (State.mapPpu evaluateSprites) <|
      doIf (decide (sl = -1 ∧ 280 ≤ cy ∧ cy < 305)) (State.mapPpu transferY) <|
      doIf (decide (cy = 338 ∨ cy = 340)) fetchTileId <|
      doIf (decide (cy = 257)) (State.mapPpu fun p => transferX (loadShifters p)) <|
      doIf (decide (cy = 256)) (State.mapPpu incrementY) <|
      doIf (decide (2 ≤ cy ∧ cy < 258 ∨ 321 ≤ cy ∧ cy < 338)) (shiftAndFetch cy) <|
      doIf (decide (sl = -1 ∧ cy = 1)) (State.mapPpu preRenderClear) s) := by
  simp only [renderSteps, inShiftWindow, Bool.decide_and, Bool.decide_or]

theorem positionSteps_eq (sl : Int) (cy : Nat) (s : State) :
    positionSteps sl cy s =
      (doIf (decide (sl ≤ 239 ∧ cy = 260)) scanlineEndHook <|
      doIf (decide ((0 ≤ sl ∧ sl ≤ 239) ∧ 1 ≤ cy ∧ cy ≤ 257)) compose <|
      doIf (decide (sl = 241 ∧ cy = 1)) (State.mapPpu vblankSet) <|
      doIf (decide (-1 ≤ sl ∧ sl ≤ 239)) (renderSteps sl cy) s) := by
  simp only [positionSteps, Bool.decide_and]

section
variable {sl : Int} {cy : Nat} (s : State)

theorem renderSteps_idle (h : cy = 0 ∨ cy = 339) : renderSteps sl cy s = s := by
  simp (disch := omega) only [renderSteps_eq, doIf_neg]

theorem renderSteps_one (h : cy = 1) : renderSteps sl cy s = if sl = -1 then s.mapPpu preRenderClear else s := by
  simp (disch := omega) only [renderSteps_eq, doIf_neg, doIf_decide, h, and_true]

theorem renderSteps_fetch (h : 2 ≤ cy ∧ cy ≤ 255 ∨ 321 ≤ cy ∧ cy ≤ 337) :
    renderSteps sl cy s = shiftAndFetch cy s := by
  simp (disch := omega) only [renderSteps_eq, doIf_neg, doIf_pos]

theorem renderSteps_256 (h : cy = 256) : renderSteps sl cy s = (shiftAndFetch cy s).mapPpu incrementY := by
  simp (disch := omega) only [renderSteps_eq, doIf_neg, doIf_pos]

theorem renderSteps_257 (h : cy = 257) :
    renderSteps sl cy s =
      let t := (shiftAndFetch cy s).mapPpu fun p => transferX (loadShifters p)
      if 0 ≤ sl then t.mapPpu evaluateSprites else t := by
  simp (disch := omega) only [renderSteps_eq, doIf_neg, doIf_pos]
  simp only [doIf_decide, h, and_true]

theorem renderSteps_blank (h : 258 ≤ cy) (k : cy ≤ 320) :
    renderSteps sl cy s = if sl = -1 ∧ 280 ≤ cy ∧ cy < 305 then s.mapPpu transferY else s := by
  simp (disch := omega) only [renderSteps_eq, doIf_neg, doIf_decide]

theorem renderSteps_338 (h : cy = 338) : renderSteps sl cy s = fetchTileId s := by
  simp (disch := omega) only [renderSteps_eq, doIf_neg, doIf_pos]

theorem renderSteps_340 (h : cy = 340) :
    renderSteps sl cy s = if 0 ≤ sl then fetchSprites (fetchTileId s) else fetchTileId s := by
  simp (disch := omega) only [renderSteps_eq, doIf_neg, doIf_pos]
  simp only [doIf_decide, h, and_true]

theorem shiftAndFetch_visible (h : cy < 258) :
    shiftAndFetch cy s = fetchStep ((cy - 1) % 8) ((s.mapPpu shiftBackground).mapPpu updateSprites) := by
  rw [shiftAndFetch, doIf_pos _ _ h]

theorem shiftAndFetch_ahead (h : 258 ≤ cy) :
    shiftAndFetch cy s = fetchStep ((cy - 1) % 8) (s.mapPpu shiftBackground) := by
  rw [shiftAndFetch, doIf_neg _ _ (Nat.not_lt.mpr h)]

/-- On dots 1 to 257 of a scanline the visible ones compose a pixel last. -/
theorem positionSteps_visible (hsl : -1 ≤ sl ∧ sl ≤ 239) (hcy : 1 ≤ cy ∧ cy ≤ 257) :
    positionSteps sl cy s = if 0 ≤ sl then compose (renderSteps sl cy s) else renderSteps sl cy s := by
  simp (disch := omega) only [positionSteps_eq, doIf_neg, doIf_pos]
  by_cases h : 0 ≤ sl
  · rw [doIf_pos _ _ (by omega), if_pos h]
  · rw [doIf_neg _ _ (by omega), if_neg h]

theorem positionSteps_260 (hsl : -1 ≤ sl ∧ sl ≤ 239) (hcy : cy = 260) :
    positionSteps sl cy s = scanlineEndHook s := by
  simp (disch := omega) only [positionSteps_eq, doIf_neg, doIf_pos, renderSteps_blank, if_neg]

theorem positionSteps_hidden (hsl : -1 ≤ sl ∧ sl ≤ 239) (hcy : cy = 0 ∨ 258 ≤ cy) (h : cy ≠ 260) :
    positionSteps sl cy s = renderSteps sl cy s := by
  simp (disch := omega) only [positionSteps_eq, doIf_neg, doIf_pos]

theorem positionSteps_below (hsl : 240 ≤ sl) :
    positionSteps sl cy s = if sl = 241 ∧ cy = 1 then s.mapPpu vblankSet else s := by
  simp (disch := omega) only [positionSteps_eq, doIf_neg, doIf_decide]

end

/-- Settles O36: the skip, and the steps of each window of dots on the rendered scanlines and below them. -/
theorem rasterSchedule : Obligations.RasterSchedule := by
  intro s skip sl cy goes on fetch shift both seen line
  have tick {t : State} (h : ¬ skip) (steps : positionSteps sl cy s = t) : goes t :=
    (ppuTick_of_not_skips h).trans (congrArg (State.mapPpu advance) steps)
  have stays (h : 1 ≤ cy) : ¬ skip := Ppu.not_skips_of_dot h
  refine ⟨ppuTick_of_skips, fun hl h hcy => tick h ?zero, fun hl hcy => tick (stays (by omega)) ?one,
    fun hl h k => tick (stays (by omega)) ?visible, fun hl hcy => tick (stays (by omega)) ?lineEnd,
    fun hl hcy => tick (stays (by omega)) ?reload, fun hl hcy => tick (stays (by omega)) ?hook,
    fun hl h k hne => tick (stays (by omega)) ?blank, fun hl h k => tick (stays (by omega)) ?ahead,
    fun hl hcy => tick (stays (by omega)) ?name, fun hl hcy => tick (stays (by omega)) ?last,
    fun hl hcy => tick (stays (by omega)) ?sprites, fun hsl => tick (Ppu.not_skips_of_line (by omega)) ?below⟩
  case zero => rw [positionSteps_hidden s hl (.inl hcy) (by omega), renderSteps_idle s (.inl hcy)]
  case one => rw [positionSteps_visible s hl (by omega), renderSteps_one s hcy]; rfl
  case visible =>
    rw [positionSteps_visible s hl (by omega), renderSteps_fetch s (.inl ⟨h, k⟩), shiftAndFetch_visible s (by omega)]
    rfl
  case lineEnd =>
    rw [positionSteps_visible s hl (by omega), renderSteps_256 s hcy, shiftAndFetch_visible s (by omega), hcy]
    rfl
  case reload =>
    rw [positionSteps_visible s hl (by omega), renderSteps_257 s hcy, shiftAndFetch_visible s (by omega)]
    rfl
  case hook => exact positionSteps_260 s hl hcy
  case blank => rw [positionSteps_hidden s hl (.inr h) hne, renderSteps_blank s h k]; rfl
  case ahead =>
    rw [positionSteps_hidden s hl (by omega) (by omega), renderSteps_fetch s (.inr ⟨h, k⟩),
      shiftAndFetch_ahead s (by omega)]
    rfl
  case name => rw [positionSteps_hidden s hl (by omega) (by omega), renderSteps_338 s hcy]
  case last => rw [positionSteps_hidden s hl (by omega) (by omega), renderSteps_idle s (.inr hcy)]
  case sprites => rw [positionSteps_hidden s hl (by omega) (by omega), renderSteps_340 s hcy]
  case below => rw [positionSteps_below s hsl]; rfl

/-! The status flags, the NMI request and `v`: what every step of R380 but PreRenderClear and VblankSet keeps of them. -/

/-- What every step but PreRenderClear and VblankSet keeps: vertical blank, the NMI request and Mask; overflow and
sprite-zero hit once they are set; with rendering disabled `v`, and sprite-zero hit as long as it is clear. -/
structure StatusKept (p q : Ppu) : Prop where
  vblank : q.vblank = p.vblank
  nmiRequest : q.nmiRequest = p.nmiRequest
  mask : q.mask = p.mask
  overflow : p.overflow = true → q.overflow = true
  hit : p.spr0Hit = true → q.spr0Hit = true
  v : p.rendering = false → q.v = p.v
  noHit : p.rendering = false → q.spr0Hit = true → p.spr0Hit = true

/-- "Rendering enabled" is two bits of Mask (R15, R31). -/
theorem Ppu.rendering_of_mask {p q : Ppu} (h : q.mask = p.mask) : q.rendering = p.rendering := by
  unfold Ppu.rendering Ppu.showBg Ppu.showSpr
  rw [h]

theorem StatusKept.refl (p : Ppu) : StatusKept p p := ⟨rfl, rfl, rfl, id, id, fun _ => rfl, fun _ => id⟩

theorem StatusKept.trans {p q r : Ppu} (h : StatusKept p q) (k : StatusKept q r) : StatusKept p r where
  vblank := k.vblank.trans h.vblank
  nmiRequest := k.nmiRequest.trans h.nmiRequest
  mask := k.mask.trans h.mask
  overflow := k.overflow ∘ h.overflow
  hit := k.hit ∘ h.hit
  v off := (k.v ((Ppu.rendering_of_mask h.mask).trans off)).trans (h.v off)
  noHit off := h.noHit off ∘ k.noHit ((Ppu.rendering_of_mask h.mask).trans off)

theorem StatusKept.doIf {c : Bool} {f : State → State} {p : Ppu} {s : State} (h : StatusKept p s.ppu)
    (hf : ∀ u, StatusKept u.ppu (f u).ppu) : StatusKept p (doIf c f s).ppu := by
  unfold Machine.doIf
  split
  · exact h.trans (hf s)
  · exact h

/-- The fields of `StatusKept` as one value: a step that writes none of them keeps it. -/
def Ppu.status (p : Ppu) : Bool × Bool × Byte × Bool × Bool × BitVec 15 :=
  (p.vblank, p.nmiRequest, p.mask, p.overflow, p.spr0Hit, p.v)

theorem StatusKept.ofStatus {p q : Ppu} (h : q.status = p.status) : StatusKept p q := by
  simp only [Ppu.status, Prod.mk.injEq] at h
  obtain ⟨vblank, nmiRequest, mask, overflow, hit, v⟩ := h
  exact ⟨vblank, nmiRequest, mask, overflow.trans, hit.trans, fun _ => v, fun _ => hit.symm.trans⟩

/-- A movement of `v`: guarded by rendering, it writes `v` alone. -/
theorem StatusKept.ofMovement {f : Ppu → Ppu} {p : Ppu} (frame : f p = { p with v := (f p).v })
    (guarded : p.rendering = false → f p = p) : StatusKept p (f p) where
  vblank := by rw [frame]
  nmiRequest := by rw [frame]
  mask := by rw [frame]
  overflow := by rw [frame]; exact id
  hit := by rw [frame]; exact id
  v off := by rw [guarded off]
  noHit _ := by rw [frame]; exact id

section
variable (p : Ppu)

theorem incrementX_frame : incrementX p = { p with v := (incrementX p).v } := by
  unfold incrementX
  split_ifs <;> rfl

theorem incrementY_frame : incrementY p = { p with v := (incrementY p).v } := by
  unfold incrementY
  split_ifs <;> rfl

theorem transferX_frame : transferX p = { p with v := (transferX p).v } := by
  unfold transferX
  split_ifs <;> rfl

theorem transferY_frame : transferY p = { p with v := (transferY p).v } := by
  unfold transferY
  split_ifs <;> rfl

variable {p} (off : p.rendering = false)
include off

theorem incrementX_off : incrementX p = p := if_neg (by simp [off])
theorem incrementY_off : incrementY p = p := if_neg (by simp [off])
theorem transferX_off : transferX p = p := if_neg (by simp [off])
theorem transferY_off : transferY p = p := if_neg (by simp [off])

end

section
variable (s : State)

theorem fetchTileId_status : StatusKept s.ppu (fetchTileId s).ppu := .ofStatus (by simp [fetchTileId, Ppu.status])
theorem fetchAttr_status : StatusKept s.ppu (fetchAttr s).ppu := .ofStatus (by simp [fetchAttr, Ppu.status])
theorem fetchLow_status : StatusKept s.ppu (fetchLow s).ppu := .ofStatus (by simp [fetchLow, Ppu.status])
theorem fetchHigh_status : StatusKept s.ppu (fetchHigh s).ppu := .ofStatus (by simp [fetchHigh, Ppu.status])

theorem loadShifters_status : StatusKept s.ppu (s.mapPpu loadShifters).ppu := .ofStatus rfl
theorem shiftBackground_status : StatusKept s.ppu (s.mapPpu shiftBackground).ppu := .ofStatus rfl
theorem updateSprites_status : StatusKept s.ppu (s.mapPpu updateSprites).ppu := .ofStatus rfl

theorem fetchStep_status (k : Nat) : StatusKept s.ppu (fetchStep k s).ppu := by
  unfold fetchStep
  split
  · exact (loadShifters_status s).trans (fetchTileId_status _)
  · exact fetchAttr_status s
  · exact fetchLow_status s
  · exact fetchHigh_status s
  · exact .ofMovement (incrementX_frame _) incrementX_off
  · exact .refl _

theorem shiftAndFetch_status (cy : Nat) : StatusKept s.ppu (shiftAndFetch cy s).ppu := by
  unfold shiftAndFetch
  exact ((shiftBackground_status s).doIf updateSprites_status).trans (fetchStep_status _ _)

theorem fetchSprites_status : StatusKept s.ppu (fetchSprites s).ppu := by
  refine .ofStatus ?_
  simp only [fetchSprites, State.mapPpu_ppu]
  rw [fetchSlots_state]
  rfl

theorem evaluateSprites_status (p : Ppu) : StatusKept p (evaluateSprites p) where
  vblank := rfl
  nmiRequest := rfl
  mask := rfl
  overflow h := by simp [evaluateSprites, h]
  hit := id
  v _ := rfl
  noHit _ := id

/-- Composing writes sprite-zero hit, which stays once it is set, and sets it only with both layers shown (R424). -/
theorem compose_status : StatusKept s.ppu (compose s).ppu := by
  unfold compose
  simp only [State.mapPpu_ppu, ppuRead_ppu]
  rw [plot_frame]
  refine { StatusKept.refl s.ppu with hit := fun h => ?_, noHit := fun off h => ?_ }
  · simp [h]
  · simp only [Ppu.rendering, Bool.or_eq_false_iff] at off
    simpa [spriteZeroHit, off] using h

theorem scanlineEndHook_status : StatusKept s.ppu (scanlineEndHook s).ppu := by
  unfold scanlineEndHook
  split <;> exact .refl _

/-- The rendering steps, away from the pre-render clear. -/
theorem renderSteps_status {sl : Int} {cy : Nat} (h : ¬ (sl = -1 ∧ cy = 1)) :
    StatusKept s.ppu (renderSteps sl cy s).ppu := by
  rw [renderSteps_eq, doIf_neg _ s h]
  refine .doIf (.doIf (.doIf (.doIf (.doIf (.doIf (.doIf (.refl _) ?fetch) ?incrementY) ?reload) ?name) ?transferY)
    ?evaluate) ?sprites
  case fetch => exact fun u => shiftAndFetch_status u cy
  case incrementY => exact fun _ => .ofMovement (incrementY_frame _) incrementY_off
  case reload => exact fun u => (loadShifters_status u).trans (.ofMovement (transferX_frame _) transferX_off)
  case name => exact fetchTileId_status
  case transferY => exact fun _ => .ofMovement (transferY_frame _) transferY_off
  case evaluate => exact fun u => evaluateSprites_status u.ppu
  case sprites => exact fetchSprites_status

/-- The steps of a position, away from the pre-render clear and the start of vertical blank. -/
theorem positionSteps_status {sl : Int} {cy : Nat} (clear : ¬ (sl = -1 ∧ cy = 1)) (start : ¬ (sl = 241 ∧ cy = 1)) :
    StatusKept s.ppu (positionSteps sl cy s).ppu := by
  rw [positionSteps_eq, doIf_neg _ _ start]
  exact .doIf (.doIf (.doIf (.refl _) fun u => renderSteps_status u clear) compose_status) scanlineEndHook_status

/-- The advance writes the position and the frame flags only. -/
theorem advance_status (p : Ppu) : StatusKept p (advance p) := by
  rw [advance_frame]
  exact .ofStatus rfl

end

/-- The pre-render clear: the tick at (-1, 1) (R386). -/
def Ppu.clears (p : Ppu) : Prop := p.scanline = -1 ∧ p.cycle = 1

/-- The start of vertical blank: the tick at (241, 1) (R430). -/
def Ppu.startsVblank (p : Ppu) : Prop := p.scanline = 241 ∧ p.cycle = 1

section
variable {s : State}

theorem ppuTick_of_clears (h : s.ppu.clears) : ppuTick s = (s.mapPpu preRenderClear).mapPpu advance := by
  obtain ⟨line, dot⟩ := h
  rw [ppuTick_of_not_skips (Ppu.not_skips_of_dot (by omega)), positionSteps_visible s (by omega) (by omega),
    renderSteps_one s dot, if_neg (by omega), if_pos line]

theorem ppuTick_of_startsVblank (h : s.ppu.startsVblank) : ppuTick s = (s.mapPpu vblankSet).mapPpu advance := by
  rw [ppuTick_of_not_skips (Ppu.not_skips_of_dot (by rw [h.2])), positionSteps_below s (by rw [h.1]; decide)]
  exact congrArg (State.mapPpu advance) (if_pos h)

/-- A tick away from those two positions. -/
theorem ppuTick_status (clear : ¬ s.ppu.clears) (start : ¬ s.ppu.startsVblank) :
    StatusKept s.ppu (ppuTick s).ppu := by
  by_cases h : s.ppu.skips
  case neg =>
    rw [ppuTick_of_not_skips h]
    exact (positionSteps_status s clear start).trans (advance_status _)
  case pos =>
    let u : State := { s with ppu := { s.ppu with cycle := 1 } }
    have line : s.ppu.scanline = 0 := h.1
    have clear : ¬ u.ppu.clears := fun h => by simpa [u, line] using h.1
    have start : ¬ u.ppu.startsVblank := fun h => by simpa [u, line] using h.1
    have skipped : StatusKept s.ppu u.ppu := .ofStatus rfl
    rw [ppuTick_of_skips h, ppuTick_of_not_skips (s := u) (Ppu.not_skips_of_dot (Nat.le_refl 1))]
    exact (skipped.trans (positionSteps_status u clear start)).trans (advance_status _)

end
/-! The NMI request on the CPU side (R354): no bus access and no instruction changes it. -/

theorem ReadFrame.nmiRequest {s t : State} (h : ReadFrame s t) : t.ppu.nmiRequest = s.ppu.nmiRequest := by rw [h]

theorem portWrite_nmiRequest (n : BitVec 3) (d : Byte) (s : State) :
    (portWrite n d s).ppu.nmiRequest = s.ppu.nmiRequest := by
  unfold portWrite
  split <;> try rfl
  · simp only [State.mapPpu, writeScroll]; split <;> rfl
  · simp only [State.mapPpu, writeAddress]; split <;> rfl
  · simp only [writeData, State.mapPpu, Ppu.stepV]; rw [ppuWrite_ppu]

theorem memWrite_nmiRequest (a : Word) (v : Byte) (s : State) :
    (memWrite a v s).ppu.nmiRequest = s.ppu.nmiRequest := by
  obtain ppu | ⟨-, -, port⟩ := memWrite_ppu a v s
  · rw [ppu]
  · rw [port, portWrite_nmiRequest]
    rfl

theorem writePlace_nmiRequest (p : Place) (v : Byte) (s : State) :
    (writePlace p v s).ppu.nmiRequest = s.ppu.nmiRequest := by
  cases p with
  | mem ea => exact memWrite_nmiRequest ea v s
  | _ => rfl

theorem trapEntry_nmiRequest (ret vector : Word) (status : Byte) (s : State) :
    (trapEntry ret status vector s).ppu.nmiRequest = s.ppu.nmiRequest := by
  refine (read16_frame vector _).nmiRequest.trans ?_
  simp

/-- The meaning of every mnemonic leaves the NMI request: it makes bus reads only, or it stores, modifies or pushes. -/
theorem meaning_nmiRequest {m : Mnemonic} {o : Operand} {n : Nat} {s t : State} (h : meaning m o n s = .next t) :
    t.ppu.nmiRequest = s.ppu.nmiRequest := by
  by_cases stores : m.stores = true
  · obtain ⟨value, run⟩ := meaning_stores o n stores
    rw [run] at h
    rw [finish_next h]
    exact (writePlace_nmiRequest _ _ _).trans (resolve_frame o s).nmiRequest
  by_cases modifies : m.modifies = true
  · obtain ⟨f, op, hop, run⟩ := meaning_modifies o n modifies
    rw [run] at h
    rw [finish_next h, (hop _ _).eq_onCpu]
    exact (writePlace_nmiRequest _ _ _).trans (readOperand_frame o s).nmiRequest
  by_cases pushes : m.pushes = true
  · cases m
    case jsr => rw [finish_next h]; simp [opJsr]
    case brk => rw [finish_next h]; exact trapEntry_nmiRequest _ _ _ s
    case pha | php => rw [finish_next h]; simp [opPha, opPhp]
    all_goals cases pushes
  exact (meaning_frame (by simpa using stores) (by simpa using pushes) (by simpa using modifies) h).nmiRequest

/-- Settles O37: by the two positions that write the flags whole, all other positions, and the CPU side. -/
theorem statusFlagTiming : Obligations.StatusFlagTiming := by
  refine ⟨?tick, fun a s => (memRead_frame a s).nmiRequest, memWrite_nmiRequest,
    fun i s t h => meaning_nmiRequest ((exec_meaning i s).symm.trans h)⟩
  intro s p start clear
  by_cases hc : clear
  case pos =>
    have ppu : p = advance (preRenderClear s.ppu) := congrArg State.ppu (ppuTick_of_clears hc)
    have hs : ¬ start := fun h => by have := h.1.symm.trans hc.1; omega
    rw [ppu, advance_frame]
    simp only [hs, hc]
    exact ⟨False.elim, fun _ => ⟨rfl, rfl, rfl, rfl, rfl, rfl, rfl⟩, fun _ k => absurd trivial k,
      fun k => absurd trivial k, by simp [preRenderClear]⟩
  by_cases hs : start
  case pos =>
    have ppu : p = advance (vblankSet s.ppu) := congrArg State.ppu (ppuTick_of_startsVblank hs)
    rw [ppu, advance_frame]
    simp only [hs, hc]
    exact ⟨fun _ => rfl, False.elim, fun k => absurd trivial k, fun _ => ⟨id, id⟩,
      by simp [vblankSet, Ppu.nmiEnabled]⟩
  case neg =>
    obtain ⟨vblank, nmiRequest, -, overflow, hit, -, -⟩ := ppuTick_status hc hs
    exact ⟨fun h => absurd h hs, fun h => absurd h hc, fun _ _ => vblank, fun _ => ⟨overflow, hit⟩,
      by simp [p, hs, nmiRequest]⟩

/-! Rendering disabled, and the scanline-end pulse (R440, R434). -/

/-- With rendering disabled a tick leaves `v` and sets no hit, at every position. -/
theorem ppuTick_off {s : State} (off : s.ppu.rendering = false) :
    (ppuTick s).ppu.v = s.ppu.v ∧ ((ppuTick s).ppu.spr0Hit = true → s.ppu.spr0Hit = true) := by
  by_cases clear : s.ppu.clears
  case pos =>
    rw [ppuTick_of_clears clear, State.mapPpu_ppu, advance_frame]
    exact ⟨rfl, fun h => nomatch h⟩
  by_cases start : s.ppu.startsVblank
  case pos =>
    rw [ppuTick_of_startsVblank start, State.mapPpu_ppu, advance_frame]
    exact ⟨rfl, id⟩
  case neg =>
    obtain ⟨-, -, -, -, -, v, noHit⟩ := ppuTick_status clear start
    exact ⟨v off, noHit off⟩

/-- The pulse of a tick, by its position: the skip changes neither the line nor whether the dot is 260. -/
theorem ppuTick_outputs (s : State) :
    (ppuTick s).outputs = if s.ppu.rendering = true ∧ s.ppu.scanline ≤ 239 ∧ s.ppu.cycle = 260 then
      { s.outputs with scanlineEnd := true } else s.outputs := by
  by_cases skips : s.ppu.skips
  case neg =>
    rw [ppuTick_of_not_skips skips]
    exact positionSteps_outputs _ _ s
  case pos =>
    have dot : s.ppu.cycle = 0 := skips.2.1
    rw [ppuTick_of_skips skips, ppuTick_of_not_skips (Ppu.not_skips_of_dot (Nat.le_refl 1)), State.mapPpu_outputs,
      positionSteps_outputs]
    simp [dot]

/-- Settles O44: the tick with rendering disabled, the pulse, and the hook. -/
theorem renderingDisabled : Obligations.RenderingDisabled :=
  fun s => ⟨ppuTick_off, ppuTick_outputs s, rfl⟩

end Sys2Proof.Machine
end

section
/-! SUPPORT. The movements of `v` as numbers (O39), and the background fetches with their addresses (O40). -/

namespace Sys2Proof.Machine

/-! The movements of `v` (R395, R397, R398, R400). -/

section
variable (v : BitVec 15)

/-- `v` with its horizontal fields replaced, as a number (R33). -/
theorem withX_eq {nx : BitVec 1} {cx : BitVec 5} {n : Nat}
    (h : v.toNat / 2048 * 2048 + nx.toNat * 1024 + v.toNat / 32 % 32 * 32 + cx.toNat = n) :
    withX v nx cx = BitVec.ofNat 15 n := by
  subst h
  refine BitVec.eq_of_toNat_eq ?_
  simp only [withX, scroll_toNat, fineY_toNat, ntY_toNat, coarseY_toNat, BitVec.toNat_ofNat]
  omega

/-- `v` with its vertical fields replaced, as a number (R33). -/
theorem withY_eq {fy : BitVec 3} {ny : BitVec 1} {cy : BitVec 5} {n : Nat}
    (h : fy.toNat * 4096 + ny.toNat * 2048 + v.toNat / 1024 % 2 * 1024 + cy.toNat * 32 + v.toNat % 32 = n) :
    withY v fy ny cy = BitVec.ofNat 15 n := by
  subst h
  refine BitVec.eq_of_toNat_eq ?_
  simp only [withY, scroll_toNat, ntX_toNat, coarseX_toNat, BitVec.toNat_ofNat]
  omega

theorem coarseX_eq_iff (k : BitVec 5) : coarseX v = k ↔ v.toNat % 32 = k.toNat := by
  rw [← BitVec.toNat_inj, coarseX_toNat]

theorem coarseY_eq_iff (k : BitVec 5) : coarseY v = k ↔ v.toNat / 32 % 32 = k.toNat := by
  rw [← BitVec.toNat_inj, coarseY_toNat]

end

section
variable {p : Ppu} (on : p.rendering = true)
include on

theorem transferX_on : transferX p = { p with v := withX p.v (ntX p.t) (coarseX p.t) } := if_pos on

theorem transferY_on : transferY p = { p with v := withY p.v (fineY p.t) (ntY p.t) (coarseY p.t) } := if_pos on

theorem incrementX_within (h : p.v.toNat % 32 < 31) :
    incrementX p = { p with v := withX p.v (ntX p.v) (coarseX p.v + 1) } := by
  rw [incrementX, if_pos on, if_neg (fun k => h.ne ((coarseX_eq_iff p.v 31).mp k))]

theorem incrementX_wrap (h : p.v.toNat % 32 = 31) :
    incrementX p = { p with v := withX p.v (ntX p.v ^^^ 1) 0 } := by
  rw [incrementX, if_pos on, if_pos ((coarseX_eq_iff p.v 31).mpr h)]

theorem incrementY_fine (h : p.v.toNat / 4096 < 7) :
    incrementY p = { p with v := withY p.v (fineY p.v + 1) (ntY p.v) (coarseY p.v) } := by
  rw [incrementY, if_pos on, if_pos (by rwa [fineY_toNat])]

/-- From the last line of a row the increment goes by the row. -/
theorem incrementY_coarse (h : p.v.toNat / 4096 = 7) :
    incrementY p =
      if p.v.toNat / 32 % 32 = 29 then { p with v := withY p.v 0 (ntY p.v ^^^ 1) 0 }
      else if p.v.toNat / 32 % 32 = 31 then { p with v := withY p.v 0 (ntY p.v) 0 }
      else { p with v := withY p.v 0 (ntY p.v) (coarseY p.v + 1) } := by
  rw [incrementY, if_pos on, if_neg (by rw [fineY_toNat, h]; decide)]
  simp only [coarseY_eq_iff]
  rfl

end

/-- Settles O39: each movement replaces fields of `v`, which is the number stated. -/
theorem scrollMovements : Obligations.ScrollMovements := by
  intro p v t on row goes
  have moved {f : Ppu → Ppu} {w : BitVec 15} {n : Nat} (step : f p = { p with v := w }) (h : w = BitVec.ofNat 15 n) :
      goes (f p) n := step.trans (congrArg (fun u => { p with v := u }) h)
  refine ⟨fun off => ?off, fun h => moved (transferX_on h) ?transferX, fun h => moved (transferY_on h) ?transferY,
    fun h k => moved (incrementX_within h k) ?within, fun h k => moved (incrementX_wrap h k) ?wrap,
    fun h k => moved (incrementY_fine h k) ?fine,
    fun h k r => moved ((incrementY_coarse h k).trans (if_pos r)) ?row29,
    fun h k r => moved ((incrementY_coarse h k).trans ((if_neg (by omega)).trans (if_pos r))) ?row31,
    fun h k r r' => moved ((incrementY_coarse h k).trans ((if_neg r).trans (if_neg r'))) ?row⟩
  case off =>
    replace off : p.rendering = false := Bool.eq_false_iff.mpr off
    exact ⟨incrementX_off off, incrementY_off off, transferX_off off, transferY_off off⟩
  case transferX => exact withX_eq _ (by rw [ntX_toNat, coarseX_toNat])
  case transferY => exact withY_eq _ (by simp only [fineY_toNat, ntY_toNat, coarseY_toNat]; omega)
  case within =>
    refine withX_eq _ ?_
    simp only [ntX_toNat, coarseX_toNat, BitVec.toNat_add, BitVec.ofNat_eq_ofNat, BitVec.toNat_ofNat]
    omega
  case wrap => exact withX_eq _ (by rw [flip_toNat, ntX_toNat]; exact Nat.add_zero _)
  case fine =>
    refine withY_eq _ ?_
    simp only [fineY_toNat, ntY_toNat, coarseY_toNat, BitVec.toNat_add, BitVec.ofNat_eq_ofNat, BitVec.toNat_ofNat]
    omega
  case row29 =>
    refine withY_eq _ ?_
    rw [flip_toNat, ntY_toNat]
    simp only [BitVec.ofNat_eq_ofNat, BitVec.toNat_ofNat]
    omega
  case row31 => exact withY_eq _ (by simp only [ntY_toNat, BitVec.ofNat_eq_ofNat, BitVec.toNat_ofNat]; omega)
  case row =>
    refine withY_eq _ ?_
    simp only [ntY_toNat, coarseY_toNat, BitVec.toNat_add, BitVec.ofNat_eq_ofNat, BitVec.toNat_ofNat]
    omega

/-! The addresses of the background fetches as numbers (R391 to R394). -/

/-- Bits side by side: the OR of a multiple of a power of two and a smaller number is their sum. -/
theorem or_toNat {w : Nat} {x y : BitVec w} (i : Nat) (hx : x.toNat % 2 ^ i = 0) (hy : y.toNat < 2 ^ i) :
    (x ||| y).toNat = x.toNat + y.toNat := by
  rw [BitVec.toNat_or, ← Nat.mul_div_cancel' (Nat.dvd_of_mod_eq_zero hx), Nat.two_pow_add_eq_or_of_lt hy]

/-- A field moved up, while it fits. -/
theorem shiftLeft_toNat {w i n : Nat} {x : BitVec w} (hx : x.toNat = n) (h : n * 2 ^ i < 2 ^ w) :
    (x <<< i).toNat = n * 2 ^ i := by
  rw [BitVec.toNat_shiftLeft, hx, Nat.shiftLeft_eq, Nat.mod_eq_of_lt h]

section
variable (v : BitVec 15)

theorem ntAddr_eq : ntAddr v = BitVec.ofNat 16 (0x2000 + v.toNat % 4096) := by
  have low : (v.setWidth 16 &&& 0x0FFF : Word).toNat = v.toNat % 4096 := by
    refine (Nat.and_two_pow_sub_one_eq_mod _ 12).trans ?_
    rw [BitVec.toNat_setWidth_of_le (by decide)]
  refine BitVec.eq_of_toNat_eq ?_
  rw [ntAddr, or_toNat 13 (by decide) (by omega), low, BitVec.toNat_ofNat]
  simp only [BitVec.ofNat_eq_ofNat, BitVec.toNat_ofNat]
  omega

/-- The attribute table of the nametable that `v` is in. -/
theorem attrTable_toNat (ny nx : BitVec 1) :
    (0x23C0 ||| (ny.setWidth 16 <<< 11) ||| (nx.setWidth 16 <<< 10) : Word).toNat =
      0x23C0 + ny.toNat * 2048 + nx.toNat * 1024 := by
  revert ny nx
  decide

theorem attrAddr_eq :
    attrAddr v = BitVec.ofNat 16 (0x23C0 + v.toNat / 1024 % 4 * 1024 + v.toNat / 128 % 8 * 8 + v.toNat / 4 % 8) := by
  have nametable : v.toNat / 1024 % 4 = v.toNat / 2048 % 2 * 2 + v.toNat / 1024 % 2 := by omega
  have table := attrTable_toNat (ntY v) (ntX v)
  have row : ((((coarseY v).setWidth 16 : Word) >>> 2) <<< 3).toNat = v.toNat / 128 % 8 * 2 ^ 3 := by
    refine shiftLeft_toNat ?_ (by omega)
    rw [BitVec.toNat_ushiftRight, BitVec.toNat_setWidth_of_le (by decide), coarseY_toNat, Nat.shiftRight_eq_div_pow]
    omega
  have column : (((coarseX v).setWidth 16 : Word) >>> 2).toNat = v.toNat / 4 % 8 := by
    rw [BitVec.toNat_ushiftRight, BitVec.toNat_setWidth_of_le (by decide), coarseX_toNat, Nat.shiftRight_eq_div_pow]
    omega
  rw [ntY_toNat, ntX_toNat] at table
  refine BitVec.eq_of_toNat_eq ?_
  have upper := or_toNat 6 (by rw [table]; omega) (by rw [row]; omega)
  rw [table, row] at upper
  have whole := or_toNat 3 (by rw [upper]; omega) (by rw [column]; omega)
  rw [upper, column] at whole
  rw [attrAddr, whole, BitVec.toNat_ofNat, nametable]
  omega

theorem coarseY_bit1 : (coarseY v).getLsbD 1 = decide (v.toNat / 64 % 2 = 1) := by
  rw [← BitVec.testBit_toNat, coarseY_toNat, Nat.testBit_eq_decide_div_mod_eq]
  congr 2
  omega

theorem coarseX_bit1 : (coarseX v).getLsbD 1 = decide (v.toNat / 2 % 2 = 1) := by
  rw [← BitVec.testBit_toNat, coarseX_toNat, Nat.testBit_eq_decide_div_mod_eq]
  congr 2
  omega

/-- The quadrant of an attribute byte is its base-4 digit (R392). -/
theorem attrQuadrant_eq (a : Byte) :
    attrQuadrant v a = BitVec.ofNat 2 (a.toNat / 4 ^ (v.toNat / 64 % 2 * 2 + v.toNat / 2 % 2)) := by
  refine BitVec.eq_of_toNat_eq ?_
  simp only [attrQuadrant, coarseY_bit1, coarseX_bit1, decide_eq_true_eq, extract_toNat, BitVec.toNat_ofNat]
  obtain hy | hy := Nat.mod_two_eq_zero_or_one (v.toNat / 64) <;>
  obtain hx | hx := Nat.mod_two_eq_zero_or_one (v.toNat / 2) <;>
  simp [hy, hx, Nat.shiftRight_eq_div_pow]

end

/-- The address of the low pattern byte (R393): half, tile and line side by side. -/
theorem patternAddr_eq (p : Ppu) :
    patternAddr p = BitVec.ofNat 16 ((p.ctrl.getLsbD 4).toNat * 4096 + p.nextId.toNat * 16 + p.v.toNat / 4096) := by
  have table := (p.ctrl.getLsbD 4).toNat_le
  refine BitVec.eq_of_toNat_eq ?_
  simp only [patternAddr, Ppu.bgTable, BitVec.toNat_add, BitVec.toNat_shiftLeft, BitVec.toNat_setWidth,
    BitVec.toNat_ofBool, fineY_toNat, Nat.shiftLeft_eq, BitVec.toNat_ofNat]
  omega

/-- The high pattern byte is 8 above the low one (R394). -/
theorem patternAddr_high_eq (p : Ppu) :
    patternAddr p + 8 =
      BitVec.ofNat 16 ((p.ctrl.getLsbD 4).toNat * 4096 + p.nextId.toNat * 16 + p.v.toNat / 4096 + 8) := by
  rw [patternAddr_eq]
  exact (BitVec.ofNat_add _ 8).symm

/-! The loads of the background pipeline (R388, R391). -/

theorem shifter_shiftLeft_eq (r : BitVec 16) : r <<< 1 = BitVec.ofNat 16 (2 * r.toNat) := by
  refine BitVec.eq_of_toNat_eq ?_
  rw [BitVec.toNat_shiftLeft, Nat.shiftLeft_eq, BitVec.toNat_ofNat, Nat.pow_one, Nat.mul_comm]

/-- Masking the low byte away is dividing it away. -/
theorem highByte_eq (r : BitVec 16) : r &&& (0xFF00 : BitVec 16) = (r >>> 8) <<< 8 := by
  ext i hi
  interval_cases i <;> simp

theorem loadLow_eq (r : BitVec 16) (b : Byte) : loadLow r b = BitVec.ofNat 16 (r.toNat / 256 * 256 + b.toNat) := by
  have high : ((r >>> 8) <<< 8).toNat = r.toNat / 256 * 2 ^ 8 := by
    refine shiftLeft_toNat ?_ (by omega)
    rw [BitVec.toNat_ushiftRight, Nat.shiftRight_eq_div_pow]
  have low : (b.setWidth 16).toNat = b.toNat := BitVec.toNat_setWidth_of_le (by decide)
  refine BitVec.eq_of_toNat_eq ?_
  rw [loadLow, highByte_eq, or_toNat 8 (by omega) (by omega), high, low, BitVec.toNat_ofNat]
  omega

theorem expandBit_toNat (b : Bool) : (expandBit b).toNat = if b then 0xFF else 0x00 := by cases b <;> rfl

/-- A PPU-bus read does not see the shifters. -/
theorem ppuRead_loadShifters (a : Word) (s : State) :
    ppuRead a (s.mapPpu loadShifters) = ((ppuRead a s).1, (ppuRead a s).2.mapPpu loadShifters) := by
  unfold ppuRead ppuReadInside
  simp only [State.mapPpu_cart]
  split
  · rfl
  · split
    · rfl
    · split <;> rfl

theorem loadShifters_eq (p : Ppu) :
    loadShifters p = { p with
      bgPatLo := BitVec.ofNat 16 (p.bgPatLo.toNat / 256 * 256 + p.nextLo.toNat)
      bgPatHi := BitVec.ofNat 16 (p.bgPatHi.toNat / 256 * 256 + p.nextHi.toNat)
      bgAttLo := BitVec.ofNat 16 (p.bgAttLo.toNat / 256 * 256 + if p.nextAttr.getLsbD 0 then 0xFF else 0x00)
      bgAttHi := BitVec.ofNat 16 (p.bgAttHi.toNat / 256 * 256 + if p.nextAttr.getLsbD 1 then 0xFF else 0x00) } := by
  simp only [loadShifters, loadLow_eq, expandBit_toNat]

/-- A fetch is a bus read and a change of the PPU, which the read leaves as it was. -/
theorem ppuRead_mapPpu (a : Word) (s : State) (f : Ppu → Ppu) :
    (ppuRead a s).2.mapPpu f = { (ppuRead a s).2 with ppu := f s.ppu } := by
  rw [State.mapPpu, ppuRead_ppu]

/-- Settles O40: each fetch step reads at its address and puts the byte into its latch. -/
theorem backgroundFetches : Obligations.BackgroundFetches := by
  intro s v word half all name attr table low high
  refine ⟨?shift, ?name, ?attr, ?low, ?high, rfl, ?idle⟩
  case shift => simp only [shiftBackground, shifter_shiftLeft_eq, word]
  case name =>
    have address : ntAddr (s.mapPpu loadShifters).ppu.v = word (0x2000 + v % 4096) := ntAddr_eq s.ppu.v
    simp only [fetchStep, fetchTileId, address, ppuRead_loadShifters, ppuRead_mapPpu]
    rw [loadShifters_eq]
    rfl
  case attr => simp only [fetchStep, fetchAttr, attrAddr_eq, ppuRead_mapPpu, attrQuadrant_eq]; rfl
  case low => simp only [fetchStep, fetchLow, patternAddr_eq, ppuRead_mapPpu]; rfl
  case high => simp only [fetchStep, fetchHigh, patternAddr_high_eq, ppuRead_mapPpu]; rfl
  case idle => rintro k (rfl | rfl | rfl) <;> rfl

end Sys2Proof.Machine
end

section
/-! SUPPORT. The sprites: evaluation (O38), and the counters, the pattern addresses and the fetch (O41). -/

namespace Sys2Proof.Machine

/-! Evaluation (R408, R410). -/

theorem Ppu.inRange_eq (p : Ppu) (n : Nat) :
    p.inRange n = decide (0 ≤ p.scanline - (p.oamByte (4 * n)).toNat ∧
      p.scanline - (p.oamByte (4 * n)).toNat < if p.ctrl.getLsbD 5 then 16 else 8) := by
  have height : (p.spriteHeight : Int) = if p.ctrl.getLsbD 5 then 16 else 8 := by
    unfold Ppu.spriteHeight Ppu.tallSprites
    split <;> rfl
  rw [Ppu.inRange, height, Bool.decide_and]

/-- The scan of a list of sprites, said once: it takes the first in range until there are eight, and overflows exactly
when one more is in range. -/
theorem scanSprites_eq (p : Ppu) (l : List Nat) (r : Scan) (h : r.found.length ≤ 8) :
    scanSprites p l r =
      { found := r.found ++ ((l.filter p.inRange).take (8 - r.found.length)).map p.slotOf
        zero := r.zero || ((l.filter p.inRange).take (8 - r.found.length)).any fun n => decide (n = 0)
        overflow := r.overflow || decide (8 < r.found.length + (l.filter p.inRange).length) } := by
  induction l generalizing r with
  | nil => simp [scanSprites, Nat.not_lt.mpr h]
  | cons n rest ih =>
    cases hn : p.inRange n with
    | false => simp only [scanSprites, hn, Bool.false_eq_true, if_false, List.filter_cons, ih r h]
    | true =>
      simp only [scanSprites, hn, if_true, List.filter_cons]
      by_cases full : r.found.length < 8
      · have room : 8 - r.found.length = 8 - (r.found.length + 1) + 1 := by omega
        rw [if_pos full, ih _ (by simp; omega), room]
        simp [Bool.or_assoc, Nat.add_assoc, Nat.add_comm 1]
      · have room : 8 - r.found.length = 0 := by omega
        have ninth : 8 < r.found.length + (n :: rest.filter p.inRange).length := by simp only [List.length_cons]; omega
        rw [if_neg full, room, decide_eq_true ninth]
        simp

/-- Sprite 0 comes first in OAM, so it is selected whenever it is in range. -/
theorem zero_selected (f : Nat → Bool) (n k : Nat) :
    (((List.range (n + 1)).filter f).take (k + 1)).any (fun i => decide (i = 0)) = f 0 := by
  rw [List.range_succ_eq_map, List.filter_cons]
  cases h : f 0 with
  | true => simp
  | false =>
    simp only [Bool.false_eq_true, if_false, List.any_eq_false, decide_eq_true_eq]
    intro i hi
    obtain ⟨j, -, rfl⟩ := List.mem_map.mp (List.mem_of_mem_filter (List.mem_of_mem_take hi))
    omega

/-- Settles O38: the scan of all of OAM from nothing found. -/
theorem spriteEvaluation : Obligations.SpriteEvaluation := by
  intro p h inRange hits slot empty
  have range : p.inRange = inRange := funext p.inRange_eq
  simp only [evaluateSprites, scanSprites_eq p _ { found := [], zero := false, overflow := false } (Nat.zero_le 8), range,
    List.nil_append, List.length_nil, Nat.sub_zero, Nat.zero_add, Bool.false_or, List.length_map, List.length_take,
    zero_selected inRange 63 7]
  rfl

/-! The counters (R404). -/

theorem mapFirst_getElem? (f : SpriteSlot → SpriteSlot) (n : Nat) (l : List SpriteSlot) (i : Nat) :
    (mapFirst f n l)[i]? = if i < n then l[i]?.map f else l[i]? := by
  induction n generalizing l i with
  | zero => rfl
  | succ n ih =>
    cases l with
    | nil => simp [mapFirst]
    | cons q rest =>
      cases i with
      | zero => simp [mapFirst]
      | succ i => simp [mapFirst, ih]

theorem SpriteSlot.tick_eq (q : SpriteSlot) :
    q.tick = if 0 < q.x.toNat then { q with x := q.x - 1 } else
      { q with lo := BitVec.ofNat 8 (2 * q.lo.toNat), hi := BitVec.ofNat 8 (2 * q.hi.toNat) } := by
  have counting : q.x ≠ 0 ↔ 0 < q.x.toNat := by
    rw [Nat.pos_iff_ne_zero, Ne, Ne, ← BitVec.toNat_inj]
    rfl
  simp only [SpriteSlot.tick, shiftLeft_one_eq, counting]

/-! The pattern addresses (R412). -/

/-- A pattern address: table, tile and line side by side. -/
theorem patternFields_eq (table : Bool) {tile : Byte} {line : Word} {m n : Nat} (hm : tile.toNat = m)
    (hn : line.toNat = n) (h : n < 16) :
    ((BitVec.ofBool table).setWidth 16 <<< 12) ||| (tile.setWidth 16 <<< 4) ||| line =
      BitVec.ofNat 16 (table.toNat * 4096 + m * 16 + n) := by
  have top : (((BitVec.ofBool table).setWidth 16 : Word) <<< 12).toNat = table.toNat * 2 ^ 12 := by
    cases table <;> rfl
  have middle : ((tile.setWidth 16 : Word) <<< 4).toNat = m * 2 ^ 4 :=
    shiftLeft_toNat ((BitVec.toNat_setWidth_of_le (by decide)).trans hm) (by omega)
  have upper := or_toNat 12 (by rw [top]; omega) (by rw [middle]; omega)
  have bound := table.toNat_le
  rw [top, middle] at upper
  have whole := or_toNat 4 (by rw [upper]; omega) (hn ▸ h)
  refine BitVec.eq_of_toNat_eq ?_
  rw [whole, upper, hn, BitVec.toNat_ofNat]
  omega

theorem evenTile_toNat (t : Byte) : (t &&& 0xFE).toNat = t.toNat / 2 * 2 := by
  revert t
  decide

theorem oddTile_toNat (t : Byte) : ((t &&& 0xFE) + 1).toNat = t.toNat / 2 * 2 + 1 := by
  revert t
  decide

/-- The tile of an 8 by 16 row: the odd one of the pair where exactly one of "lower half" and "flipped" holds. -/
theorem tallTile_toNat (t : Byte) (flip : Bool) {row : Nat} (h : row < 16) :
    (if decide ((row : Int) < 8) = flip then (t &&& 0xFE) + 1 else t &&& 0xFE).toNat =
      t.toNat / 2 * 2 + if flip then 1 - row / 8 else row / 8 := by
  have half : decide ((row : Int) < 8) = flip ↔ (if flip then 1 - row / 8 else row / 8) = 1 := by
    cases flip <;> simp <;> omega
  have bound : (if flip then 1 - row / 8 else row / 8) ≤ 1 := by split <;> omega
  split
  next odd => rw [oddTile_toNat, half.mp odd]
  next even => rw [evenTile_toNat]; rw [half] at even; omega

theorem bit0_toNat (t : Byte) : (t.getLsbD 0).toNat = t.toNat % 2 := by
  rw [← BitVec.testBit_toNat, Nat.toNat_testBit, Nat.pow_zero, Nat.div_one]

section
variable {p : Ppu} {q : SpriteSlot} {row : Nat} (hrow : p.scanline - q.y.toNat = row)
include hrow

/-- The row of an 8 by 8 sprite: from the top, or flipped from the bottom while it is within 8. -/
theorem spriteAddr_short (size : p.ctrl.getLsbD 5 = false) (h : row < if q.attr.getLsbD 7 then 8 else 16) :
    spriteAddr p q = BitVec.ofNat 16 ((p.ctrl.getLsbD 3).toNat * 4096 + q.tile.toNat * 16 +
      if q.attr.getLsbD 7 then 7 - row else row) := by
  have line : (if q.attr.getLsbD 7 then 7 - (row : Int) else row) =
      ((if q.attr.getLsbD 7 then 7 - row else row : Nat) : Int) := by
    split_ifs at h ⊢ <;> omega
  have bound : (if q.attr.getLsbD 7 then 7 - row else row) < 16 := by
    split_ifs at h ⊢ <;> omega
  simp only [spriteAddr, hrow, Ppu.tallSprites, size, Bool.false_eq_true, if_false, line, Int.natCast_nonneg, if_true,
    BitVec.ofInt_natCast, Ppu.sprTable]
  exact patternFields_eq _ rfl (by rw [BitVec.toNat_ofNat]; omega) bound

theorem spriteAddr_tall (size : p.ctrl.getLsbD 5 = true) (h : row < 16) :
    spriteAddr p q = BitVec.ofNat 16 (q.tile.toNat % 2 * 4096 +
      (q.tile.toNat / 2 * 2 + if q.attr.getLsbD 7 then 1 - row / 8 else row / 8) * 16 +
        if q.attr.getLsbD 7 then 7 - row % 8 else row % 8) := by
  have low : (BitVec.ofInt 16 (row : Int) &&& 7).toNat = row % 8 := by
    refine (Nat.and_two_pow_sub_one_eq_mod _ 3).trans ?_
    rw [BitVec.ofInt_natCast, BitVec.toNat_ofNat]
    omega
  have line :
      (if q.attr.getLsbD 7 then 7 - (BitVec.ofInt 16 (row : Int) &&& 7) else BitVec.ofInt 16 (row : Int) &&& 7).toNat =
      if q.attr.getLsbD 7 then 7 - row % 8 else row % 8 := by
    split
    · rw [BitVec.toNat_sub, low]
      simp only [BitVec.ofNat_eq_ofNat, BitVec.toNat_ofNat]
      omega
    · exact low
  refine (if_pos size).trans ?_
  rw [hrow]
  refine (patternFields_eq _ (tallTile_toNat _ _ h) line (by split_ifs <;> omega)).trans ?_
  rw [bit0_toNat]

end

/-! The fetch (R412, R413). -/

theorem SpriteSlot.load_eq (q : SpriteSlot) (lo hi : Byte) :
    q.load lo hi = { q with
      lo := if q.attr.getLsbD 6 then flipByte lo else lo, hi := if q.attr.getLsbD 6 then flipByte hi else hi } := by
  unfold SpriteSlot.load
  split <;> rfl

theorem flipByte_getLsbD (b : Byte) {i : Nat} (h : i < 8) : (flipByte b).getLsbD i = b.getLsbD (7 - i) := by
  rw [flipByte, BitVec.getLsbD_reverse, BitVec.getMsbD, decide_eq_true h, Bool.true_and]

/-- Settles O41: the counters slot by slot, the addresses by size, the fetch by its trace. -/
theorem spriteFetch : Obligations.SpriteFetch := by
  refine ⟨fun p => ⟨rfl, fun i => ?counters⟩,
    fun p q row hrow => ⟨spriteAddr_short hrow, spriteAddr_tall hrow⟩, fun s => ?fetch, fun b _ h => flipByte_getLsbD b h⟩
  case counters =>
    refine (mapFirst_getElem? SpriteSlot.tick _ _ i).trans ?_
    rw [funext SpriteSlot.tick_eq]
  case fetch =>
    obtain ⟨at_, first, last, others, reads⟩ := fetchSlots_trace s.ppu.spriteCount s.ppu.slots s
    have ppu : (at_ s.ppu.spriteCount).ppu = s.ppu := by rw [← last, fetchSlots_state]; rfl
    refine ⟨at_, first, ?state, others, fun i q hi hq => ?slot⟩
    case state =>
      simp only [fetchSprites, last, State.mapPpu, ppu]
    case slot =>
      intro low high plane
      obtain ⟨next, loaded⟩ := reads i q hi hq
      exact ⟨next, loaded.trans (congrArg some (q.load_eq _ _))⟩

end Sys2Proof.Machine
end

section
/-! SUPPORT. The foreground pixel (O42), and composing a pixel (O43). -/

namespace Sys2Proof.Machine

/-! The foreground pixel (R418). -/

/-- The slot is reached and its pixel is opaque. -/
def SpriteSlot.shows (q : SpriteSlot) : Prop := q.x = 0 ∧ q.px ≠ 0

/-- The foreground pixel that a slot gives. -/
def SpriteSlot.spritePixel (q : SpriteSlot) (zero : Bool) : SpritePixel :=
  { pixel := { px := q.px, pal := 1#1 ++ q.attr.extractLsb' 0 2 }, front := !q.attr.getLsbD 5, zero := zero }

section
variable (q : SpriteSlot) (rest : List SpriteSlot) (n i : Nat)

theorem firstOpaque_shows (h : q.shows) : firstOpaque (n + 1) i (q :: rest) = q.spritePixel (decide (i = 0)) := if_pos h

theorem firstOpaque_hides (h : ¬ q.shows) : firstOpaque (n + 1) i (q :: rest) = firstOpaque n (i + 1) rest := if_neg h

end

/-- If slot `j` shows and none before it does, the pixel is that of slot `j`. -/
theorem firstOpaque_first {n i j : Nat} {l : List SpriteSlot} {q : SpriteSlot} (hj : j < n) (hq : l[j]? = some q)
    (shows : q.shows) (before : ∀ k r, k < j → l[k]? = some r → ¬ r.shows) :
    firstOpaque n i l = q.spritePixel (decide (i + j = 0)) := by
  induction l generalizing n i j with
  | nil => simp at hq
  | cons r rest ih =>
    obtain ⟨n, rfl⟩ : ∃ m, n = m + 1 := ⟨n - 1, by omega⟩
    cases j with
    | zero =>
      obtain rfl : r = q := by simpa using hq
      exact firstOpaque_shows r rest n i shows
    | succ j =>
      rw [firstOpaque_hides r rest n i (before 0 r (Nat.zero_lt_succ j) rfl),
        ih (Nat.lt_of_succ_lt_succ hj) (by simpa using hq)
          fun k r' hk hr => before (k + 1) r' (by omega) (by simpa using hr)]
      congr 2
      simp

/-- If no slot in use shows, the pixel is transparent. -/
theorem firstOpaque_none {n i : Nat} {l : List SpriteSlot} (h : ∀ j q, j < n → l[j]? = some q → ¬ q.shows) :
    firstOpaque n i l = .clear := by
  induction l generalizing n i with
  | nil => cases n <;> rfl
  | cons r rest ih =>
    cases n with
    | zero => rfl
    | succ n =>
      rw [firstOpaque_hides r rest n i (h 0 r (Nat.zero_lt_succ n) rfl)]
      exact ih fun j q hj hq => h (j + 1) q (by omega) (by simpa using hq)

/-- A pixel index is its two bits (R418). -/
theorem twoBits_toNat (b c : Bool) : (BitVec.ofBool b ++ BitVec.ofBool c).toNat = 2 * b.toNat + c.toNat := by
  rw [append_toNat, BitVec.toNat_ofBool, BitVec.toNat_ofBool]
  omega

/-- Transparent is index 0. -/
theorem index_eq_zero_iff (x : BitVec 2) : x = 0 ↔ x.toNat = 0 := BitVec.toNat_inj.symm

theorem SpriteSlot.px_toNat (q : SpriteSlot) : q.px.toNat = 2 * (q.hi.getLsbD 7).toNat + (q.lo.getLsbD 7).toNat :=
  twoBits_toNat _ _

theorem SpriteSlot.shows_iff (q : SpriteSlot) :
    q.shows ↔ q.x = 0 ∧ 2 * (q.hi.getLsbD 7).toNat + (q.lo.getLsbD 7).toNat ≠ 0 := by
  rw [SpriteSlot.shows, Ne, index_eq_zero_iff, SpriteSlot.px_toNat]

theorem SpriteSlot.spritePixel_eq (q : SpriteSlot) (zero : Bool) :
    q.spritePixel zero =
      { pixel := { px := BitVec.ofNat 2 (2 * (q.hi.getLsbD 7).toNat + (q.lo.getLsbD 7).toNat)
                   pal := BitVec.ofNat 3 (4 + q.attr.toNat % 4) }
        front := !q.attr.getLsbD 5, zero := zero } := by
  have pal : (1#1 ++ q.attr.extractLsb' 0 2 : BitVec 3) = BitVec.ofNat 3 (4 + q.attr.toNat % 4) := by
    refine BitVec.eq_of_toNat_eq ?_
    rw [append_toNat, extract_toNat, BitVec.toNat_ofNat, BitVec.toNat_ofNat]
    omega
  rw [← SpriteSlot.px_toNat, BitVec.ofNat_toNat, ← pal]
  rfl

theorem foregroundPixel_shown {p : Ppu} (h : p.mask.getLsbD 4 = true ∧ (p.mask.getLsbD 2 = true ∨ 9 ≤ p.cycle)) :
    foregroundPixel p = firstOpaque p.spriteCount 0 p.slots := by
  rw [foregroundPixel, if_pos (by simpa [Ppu.showSpr, Ppu.sprLeft] using h)]

theorem foregroundPixel_hidden {p : Ppu} (h : ¬ (p.mask.getLsbD 4 = true ∧ (p.mask.getLsbD 2 = true ∨ 9 ≤ p.cycle))) :
    foregroundPixel p = .clear := by
  rw [foregroundPixel, if_neg (by simpa [Ppu.showSpr, Ppu.sprLeft] using h)]

/-- Settles O42: with sprites shown the first slot that shows gives the pixel. -/
theorem foregroundPixel_isFirstOpaque : Obligations.ForegroundPixel := by
  intro p _ shown px opaqueAt
  have hides {j : Nat} {q : SpriteSlot} (hq : p.slots[j]? = some q) (h : ¬ opaqueAt j) : ¬ q.shows :=
    fun k => h ⟨q, hq, q.shows_iff.mp k⟩
  refine ⟨fun i q hs hi hq ⟨q', hq', visible⟩ before => ?first, fun h => ?none⟩
  case first =>
    obtain rfl : q = q' := Option.some.inj (hq.symm.trans hq')
    rw [foregroundPixel_shown hs,
      firstOpaque_first hi hq (q.shows_iff.mpr visible) fun k r hk hr => hides hr (before k hk),
      SpriteSlot.spritePixel_eq, Nat.zero_add]
  case none =>
    by_cases hs : shown
    · rw [foregroundPixel_shown hs]
      exact firstOpaque_none fun j q hj hq => hides hq ((h.resolve_left (not_not.mpr hs)) j hj)
    · exact foregroundPixel_hidden hs

/-! The background pixel (R416). -/

theorem backgroundPixel_eq (p : Ppu) :
    backgroundPixel p =
      if p.mask.getLsbD 3 = true ∧ (p.mask.getLsbD 1 = true ∨ 9 ≤ p.cycle) then
        let k := 15 - p.fineX.toNat
        { px := BitVec.ofBool (p.bgPatHi.getLsbD k) ++ BitVec.ofBool (p.bgPatLo.getLsbD k)
          pal := 0#1 ++ (BitVec.ofBool (p.bgAttHi.getLsbD k) ++ BitVec.ofBool (p.bgAttLo.getLsbD k)) }
      else .clear := by
  simp only [backgroundPixel, Ppu.showBg, Ppu.bgLeft, Bool.and_eq_true, Bool.or_eq_true, decide_eq_true_eq]

/-- The palettes of the background are 0 to 3 (R416). -/
theorem backgroundPal_toNat (b c : Bool) :
    (0#1 ++ (BitVec.ofBool b ++ BitVec.ofBool c) : BitVec 3).toNat = 2 * b.toNat + c.toNat := by
  rw [append_toNat, twoBits_toNat, BitVec.toNat_zero, Nat.zero_mul, Nat.zero_add]

/-! The colour of a pixel (R420, R426). -/

/-- The palette entry of a pixel (R426). -/
def Pixel.entry (q : Pixel) : Nat := q.pal.toNat * 4 + q.px.toNat

section
variable (bg : Pixel) (fg : SpritePixel)

theorem composite_entry :
    (composite bg fg).entry =
      if bg.px.toNat = 0 ∧ fg.pixel.px.toNat = 0 then 0
      else if fg.pixel.px.toNat ≠ 0 ∧ (bg.px.toNat = 0 ∨ fg.front = true) then fg.pixel.entry
      else bg.entry := by
  simp only [composite, index_eq_zero_iff]
  by_cases hb : bg.px.toNat = 0 <;> by_cases hf : fg.pixel.px.toNat = 0
  · simp only [hb, hf, and_self, if_true]
    rfl
  · simp only [hb, hf, and_false, if_false, if_true, ne_eq, not_false_eq_true, true_or, and_self]
  · simp only [hb, hf, false_and, if_false, if_true, ne_eq, not_true_eq_false]
  · simp only [hb, hf, and_self, if_false, ne_eq, not_false_eq_true, false_or, true_and]
    split <;> rfl

/-- What composing gives is opaque, or the transparent pixel of palette 0. -/
theorem composite_clear_or_opaque : composite bg fg = .clear ∨ (composite bg fg).px.toNat ≠ 0 := by
  unfold composite
  simp only [index_eq_zero_iff]
  split_ifs with both hb hf front
  · exact .inl rfl
  · exact .inr fun hf => both ⟨hb, hf⟩
  · exact .inr hb
  · exact .inr hf
  · exact .inr hb

end

theorem pixelAddr_toNat (q : Pixel) : ((pixelAddr q).setWidth 14).toNat = 0x3F00 + q.entry := by
  have shifted : ((q.pal.setWidth 16 : Word) <<< 2).toNat = q.pal.toNat * 2 ^ 2 :=
    shiftLeft_toNat (BitVec.toNat_setWidth_of_le (by decide)) (by omega)
  rw [pixelAddr, Pixel.entry, BitVec.toNat_setWidth, BitVec.toNat_add, BitVec.toNat_add, shifted,
    BitVec.toNat_setWidth_of_le (by decide)]
  simp only [Nat.cast_ofNat, BitVec.ofNat_eq_ofNat, BitVec.toNat_ofNat]
  omega

/-- The entry of such a pixel is no mirror (R104). -/
theorem palIndex_pixelAddr {q : Pixel} (h : q = .clear ∨ q.px.toNat ≠ 0) :
    palIndex ((pixelAddr q).setWidth 14) = q.entry := by
  obtain rfl | visible := h
  · rfl
  · have low : (0x3F00 + q.entry) % 32 = q.entry := by unfold Pixel.entry; omega
    rw [palIndex_eq, pixelAddr_toNat, low, if_neg]
    unfold Pixel.entry
    omega

/-- The colour of a pixel: the palette byte of its entry under the mask, with no cartridge asked (R105, R426). -/
theorem ppuRead_pixelAddr {q : Pixel} (s : State) (h : q = .clear ∨ q.px.toNat ≠ 0) :
    ppuRead (pixelAddr q) s = (Memory.read Config.initPalette s.ppu.palette q.entry &&& s.ppu.paletteMask, s) := by
  rw [ppuRead_palette s (by rw [pixelAddr_toNat]; omega), palIndex_pixelAddr h]

/-! Sprite-zero hit (R424), and composing. -/

theorem spriteZeroHit_eq {p : Ppu} (bg : Pixel) (fg : SpritePixel) (h : 1 ≤ p.cycle) (k : p.cycle ≤ 257) :
    spriteZeroHit p bg fg = decide (bg.px.toNat ≠ 0 ∧ fg.pixel.px.toNat ≠ 0 ∧ p.spr0Possible = true ∧
      fg.zero = true ∧ p.mask.getLsbD 3 = true ∧ p.mask.getLsbD 4 = true) := by
  have before : p.cycle < 258 := by omega
  simp only [spriteZeroHit, Ppu.showBg, Ppu.showSpr, h, before, Ne, index_eq_zero_iff, Bool.decide_and, decide_true,
    Bool.and_true, Bool.decide_eq_true, Bool.and_assoc]

/-- Up to cycle 256 the frame takes the colour (R426). -/
theorem plot_eq (p : Ppu) (c : Byte) :
    p.plot c = { p with
      frame := if p.cycle ≤ 256 then
          Memory.put p.frame (p.scanline.toNat * 256 + (p.cycle - 1)) (BitVec.ofNat 6 c.toNat)
        else p.frame } := by
  rw [Ppu.plot, BitVec.ofNat_toNat]
  split <;> rfl

/-- Composing, with the colour written out. -/
theorem compose_eq (s : State) :
    compose s =
      let bg := backgroundPixel s.ppu
      let fg := foregroundPixel s.ppu
      let c := Memory.read Config.initPalette s.ppu.palette (composite bg fg).entry &&& s.ppu.paletteMask
      s.mapPpu fun p =>
        { p with spr0Rendered := fg.zero, spr0Hit := p.spr0Hit || spriteZeroHit p bg fg }.plot c := by
  simp only [compose, ppuRead_pixelAddr _ (composite_clear_or_opaque _ _)]
  rfl

/-- Settles O43: the parts of composing as numbers. -/
theorem composePixel : Obligations.ComposePixel := by
  intro s _ _ h1 h2 p k fg shown bit bgPx bgPal fgPx sprite entry hit c
  have px : (backgroundPixel p).px.toNat = bgPx := by
    rw [backgroundPixel_eq, apply_ite Pixel.px, apply_ite BitVec.toNat, twoBits_toNat]
    rfl
  have pal : (backgroundPixel p).pal.toNat = bgPal := by
    rw [backgroundPixel_eq, apply_ite Pixel.pal, apply_ite BitVec.toNat, backgroundPal_toNat]
    rfl
  have colour : (composite (backgroundPixel p) fg).entry = entry := by
    rw [composite_entry, px, Pixel.entry, Pixel.entry, px, pal]
  have zeroHit : spriteZeroHit p (backgroundPixel p) fg = decide hit := by
    rw [spriteZeroHit_eq _ _ h1 h2, px]
  rw [compose_eq]
  simp only [plot_eq, p, fg] at colour zeroHit ⊢
  rw [colour, State.mapPpu, zeroHit]
  rfl

end Sys2Proof.Machine
end

section
/-! SUPPORT. The DMA engine: one slot (O47), and the transfer of a page of work memory (O48). -/

namespace Sys2Proof.Machine

/-! The four slots of the engine (R457 to R461). -/

section
variable {s : State}

theorem dmaSlot_waiting_odd (wait : s.orch.dmaAlign = true) (odd : s.orch.counter % 2 = 1) :
    dmaSlot s = s.mapOrch fun o => { o with dmaAlign := false } := by rw [dmaSlot, if_pos wait, if_pos odd]

theorem dmaSlot_waiting_even (wait : s.orch.dmaAlign = true) (even : s.orch.counter % 2 = 0) : dmaSlot s = s := by
  rw [dmaSlot, if_pos wait, if_neg (by omega)]

theorem dmaSlot_read (aligned : s.orch.dmaAlign = false) (even : s.orch.counter % 2 = 0) : dmaSlot s = dmaRead s := by
  rw [dmaSlot, if_neg (by simp [aligned]), if_pos even]

theorem dmaSlot_write (aligned : s.orch.dmaAlign = false) (odd : s.orch.counter % 2 = 1) : dmaSlot s = dmaWrite s := by
  rw [dmaSlot, if_neg (by simp [aligned]), if_neg (by omega)]

end

/-- Stepping the index, and the end of the transfer at its wrap, with the index as a number (R460, R461). -/
theorem Orch.nextByte_eq (o : Orch) :
    o.nextByte = { o with
      dmaIndex := BitVec.ofNat 8 (o.dmaIndex.toNat + 1)
      dmaActive := if o.dmaIndex.toNat = 255 then false else o.dmaActive
      dmaAlign := if o.dmaIndex.toNat = 255 then true else o.dmaAlign } := by
  have wrap : o.dmaIndex = 0xFF ↔ o.dmaIndex.toNat = 255 := BitVec.toNat_inj.symm
  rw [Orch.nextByte]
  split
  next last => rw [if_pos (wrap.mp last), if_pos (wrap.mp last), last]; rfl
  next inside => rw [if_neg (mt wrap.mpr inside), if_neg (mt wrap.mpr inside), byte_up_eq]

/-- Settles O47: waiting or aligned, on an even or an odd count. -/
theorem dmaSlotRule : Obligations.DmaSlotRule := by
  intro s o r last
  refine ⟨dmaSlot_waiting_odd, dmaSlot_waiting_even, dmaSlot_read, fun aligned odd => ?_⟩
  rw [dmaSlot_write aligned odd, dmaWrite, State.mapOrch, State.mapPpu_orch, Orch.nextByte_eq]
  rfl

/-! A run of slots. -/

/-- One CPU-rate slot of the engine, to the count of the next (R451). -/
def dmaTurn (s : State) : State := (dmaSlot s).mapOrch fun o => { o with counter := o.counter + 3 }

theorem dmaTurn_write {s : State} (aligned : s.orch.dmaAlign = false) (odd : s.orch.counter % 2 = 1) :
    dmaTurn s = (dmaWrite s).mapOrch fun o => { o with counter := o.counter + 3 } := by
  rw [dmaTurn, dmaSlot_write aligned odd]

theorem dmaSlots_succ (n : Nat) (s : State) : dmaSlots (n + 1) s = dmaTurn (dmaSlots n s) := by
  induction n generalizing s with
  | zero => rfl
  | succ n ih => exact ih (dmaTurn s)

/-- A byte of work memory the cartridge does not claim is read without side effects. -/
theorem unclaimed.memRead_work_eq {a : Word} {s : State} (h : unclaimed a s) (ha : a.toNat < 0x2000) :
    memRead a s = (s.workByte a, s) := by rw [h.memRead_inside, memReadInside_work s ha]

/-- An aligned transfer from `s` at its turn to read byte `n`: the first `n` bytes of the page are in OAM, and all that
the transfer of a byte needs or must keep stands as in `s`. At `n = 256` the transfer has ended (R460, R461). -/
structure Copied (s : State) (n : Nat) (t : State) : Prop where
  oam : ∀ k : Byte, k.toNat < n → t.ppu.oamByte k.toNat = s.workByte (wordOf s.orch.dmaPage k)
  index : t.orch.dmaIndex = BitVec.ofNat 8 n
  active : t.orch.dmaActive = decide (n < 256)
  align : t.orch.dmaAlign = decide (256 ≤ n)
  counter : t.orch.counter = s.orch.counter + 6 * n
  page : t.orch.dmaPage = s.orch.dmaPage
  work : t.orch.workRam = s.orch.workRam
  cart : t.cart = s.cart
  oamAddr : t.ppu.oamAddr = s.ppu.oamAddr
  cpu : t.cpu = s.cpu

section
variable {s t : State} {n : Nat} (even : s.orch.counter % 2 = 0) (window : s.orch.dmaPage.toNat < 0x20)
  (free : ∀ k : Byte, unclaimed (wordOf s.orch.dmaPage k) s)
include even window free

/-- The read turn of byte `n` (R459). -/
theorem Copied.dmaTurn_read (h : Copied s n t) (hn : n < 256) :
    dmaTurn t = t.mapOrch fun o => { o with
      dmaData := s.workByte (wordOf s.orch.dmaPage (BitVec.ofNat 8 n)), counter := o.counter + 3 } := by
  have aligned : t.orch.dmaAlign = false := by simp [h.align, hn]
  have count := h.counter
  have low : (wordOf s.orch.dmaPage (BitVec.ofNat 8 n)).toNat < 0x2000 := by
    have := (BitVec.ofNat 8 n).isLt
    rw [wordOf_toNat]
    omega
  have read := ((free (BitVec.ofNat 8 n)).ofCart h.cart).memRead_work_eq low
  rw [dmaTurn, dmaSlot_read aligned (by omega), dmaRead, h.page, h.index, read, State.workByte, h.work]
  rfl

/-- The two turns of byte `n` (R459, R460). -/
theorem Copied.next (h : Copied s n t) (hn : n < 256) : Copied s (n + 1) (dmaTurn (dmaTurn t)) := by
  have number : (BitVec.ofNat 8 n).toNat = n := Nat.mod_eq_of_lt hn
  have aligned : t.orch.dmaAlign = false := by simp [h.align, hn]
  have count := h.counter
  have readTurn := h.dmaTurn_read even window free hn
  have odd : (dmaTurn t).orch.counter % 2 = 1 := by
    rw [readTurn]
    show (t.orch.counter + 3) % 2 = 1
    omega
  rw [dmaTurn_write (by rw [readTurn]; exact aligned) odd, readTurn]
  unfold dmaWrite
  refine ⟨fun k hk => ?oam, ?index, ?active, ?align, ?counter, ?page, ?work, h.cart, h.oamAddr, h.cpu⟩ <;>
    simp only [State.mapOrch_orch, State.mapOrch_ppu, State.mapPpu_orch, State.mapPpu_ppu, Orch.nextByte_eq, h.index,
      number]
  case oam =>
    rw [Ppu.oamByte, Ppu.setOam, Memory.read_put, number]
    split
    next written => rw [← written, BitVec.ofNat_toNat, BitVec.setWidth_eq]
    next other => exact h.oam k (by omega)
  case active =>
    rw [h.active]
    split
    next last => simp [last]
    next inside => rw [decide_eq_decide]; omega
  case align =>
    rw [h.align]
    split
    next last => simp [last]
    next inside => rw [decide_eq_decide]; omega
  case counter => omega
  case page => exact h.page
  case work => exact h.work

/-- After two slots for each of the first `n` bytes. -/
theorem copied_dmaSlots (active : s.orch.dmaActive = true) (aligned : s.orch.dmaAlign = false)
    (first : s.orch.dmaIndex = 0) (hn : n ≤ 256) : Copied s n (dmaSlots (2 * n) s) := by
  induction n with
  | zero => exact ⟨fun k hk => absurd hk (Nat.not_lt_zero _), first, active, aligned, rfl, rfl, rfl, rfl, rfl, rfl⟩
  | succ n ih =>
    rw [Nat.mul_succ, dmaSlots_succ, dmaSlots_succ]
    exact (ih (by omega)).next even window free (by omega)

end

/-- Settles O48: after `2 * n` slots `n` bytes are copied, so 512 slots copy the page, and before that the engine is in
one of the two turns of a byte. -/
theorem dmaCopiesPage : Obligations.DmaCopiesPage := by
  intro s active aligned first even window free t
  have copied : ∀ n ≤ 256, Copied s n (dmaSlots (2 * n) s) := fun n =>
    copied_dmaSlots even window free active aligned first
  have done : Copied s 256 t := copied 256 (Nat.le_refl _)
  refine ⟨fun k => ?bytes, done.active, done.align, done.oamAddr, done.cpu, done.counter, fun n hn => ?inFlight⟩
  case bytes =>
    rw [done.oam k k.isLt, (free k).memRead_work (by have := k.isLt; rw [wordOf_toNat]; omega)]
  case inFlight =>
    have h := copied (n / 2) (by omega)
    have before : n / 2 < 256 := by omega
    have inFlight : (dmaSlots (2 * (n / 2)) s).orch.dmaActive = true := by simp [h.active, before]
    obtain readTurn | writeTurn := Nat.mod_two_eq_zero_or_one n
    · rwa [show 2 * (n / 2) = n by omega] at inFlight
    · rw [show n = 2 * (n / 2) + 1 by omega, dmaSlots_succ, h.dmaTurn_read even window free before]
      exact inFlight

end Sys2Proof.Machine
end

section
/-! SUPPORT. The interrupt sequences (O49), the interrupt phase (O50), the return from a trap and from a subroutine
(O51), and the reset (O52, O53). -/

namespace Sys2Proof.Machine

/-! The sequences NMI and IRQ (R494 to R497). -/

theorem irq_masked {s : State} (h : s.cpu.p.i = true) : irq s = s := if_pos h

theorem irq_honoured {s : State} (h : s.cpu.p.i = false) :
    irq s = (interruptEntry Config.irqVector s).setCycles s.params.irqCycles := if_neg (by simp [h])

/-- Settles O49: both sequences take a trap with the interrupt's status byte, and then owe their cost. -/
theorem interruptSequences : Obligations.InterruptSequences := by
  intro s t u w enter
  refine ⟨?nmi, fun h => ?irq, irq_masked⟩
  case nmi => rw [nmi, interruptEntry, trapEntry_eq]; rfl
  case irq => rw [irq_honoured h, interruptEntry, trapEntry_eq]; rfl

/-! What a trap leaves alone, and with it the interrupt phase (R464 to R466). -/

/-- What neither a bus read nor a write to the stack changes, a trap leaves alone. -/
theorem trapEntry_keeps {α : Type} {f : State → α} (reads : ∀ {s t}, ReadFrame s t → f t = f s)
    (stack : ∀ p v s, f (memWrite (stackAddr p) v s) = f s) (ret : Word) (status : Byte) (vector : Word) (s : State) :
    f (trapEntry ret status vector s) = f s := by
  rw [trapEntry_eq]
  refine (reads ((read16_frame vector _).withCpu _)).trans ?_
  rw [stack, stack, stack]

/-- What of the cartridge an interrupt phase asks: is it arbitrary, and its IRQ level. -/
def Cart.signals (c : Cart) : Bool × Bool := (c.oracle, c.irq)

theorem Cart.cpuWrite_signals (a : Word) (v : Byte) (c : Cart) : (c.cpuWrite a v).2.signals = c.signals := by
  unfold Cart.cpuWrite
  split
  · rfl
  · split <;> rfl

theorem ReadFrame.cart_signals {s t : State} (h : ReadFrame s t) : t.cart.signals = s.cart.signals := by
  rw [h.cart_eq]; rfl

theorem memWrite_stack_cart (p v : Byte) (s : State) :
    (memWrite (stackAddr p) v s).cart = (s.cart.cpuWrite (stackAddr p) v).2 := by
  rw [memWrite, memWriteInside, if_pos (stackAddr_lt p)]
  split <;> rfl

theorem nmi_signals (s : State) : (nmi s).cart.signals = s.cart.signals :=
  trapEntry_keeps (f := (·.cart.signals)) ReadFrame.cart_signals
    (fun p v s => by rw [memWrite_stack_cart, Cart.cpuWrite_signals]) _ _ _ s

theorem nmi_masks (s : State) : (nmi s).cpu.p.i = true := by
  rw [nmi, State.setCycles_cpu, interruptEntry, trapEntry_cpu]

/-- The mapper's request is cleared (R465). -/
def State.clearIrq (s : State) : State :=
  { s with cart := s.cart.irqClear, outputs := { s.outputs with irqClear := true } }

section
variable {s : State}

theorem routeNmi_idle (h : s.ppu.nmiRequest = false) : routeNmi s = s := if_neg (by simp [h])

theorem routeNmi_taken (h : s.ppu.nmiRequest = true) :
    routeNmi s = nmi { s with ppu := { s.ppu with nmiRequest := false } } := if_pos h

theorem routeIrq_idle (h : s.cart.signals = (false, false)) : routeIrq s = s := by
  obtain ⟨concrete, level⟩ := Prod.mk.inj h
  simp [routeIrq, Cart.irqPending, concrete, level]

theorem routeIrq_cleared (h : s.cart.signals = (false, true)) : routeIrq s = irq s.clearIrq := by
  obtain ⟨concrete, level⟩ := Prod.mk.inj h
  simp [routeIrq, Cart.irqPending, concrete, level, State.clearIrq]

end

/-- Settles O50: after a taken NMI the cartridge's level stands as before and Interrupt-disable is set, so that a
pending IRQ is cleared and lost. -/
theorem interruptRouting : Obligations.InterruptRouting := by
  intro s concrete taken cleared
  have signals {level : Bool} (h : s.cart.irq = level) : s.cart.signals = (false, level) := Prod.ext concrete h
  have after {level : Bool} (h : s.cart.irq = level) : taken.cart.signals = (false, level) :=
    (nmi_signals _).trans (signals h)
  refine ⟨fun hn hi => ?none, fun hn hi => ?nmi, fun hn hi => ?irq, fun hn hi => ?both⟩
  case none => rw [routeNmi_idle hn, routeIrq_idle (signals hi)]
  case nmi => rw [routeNmi_taken hn, routeIrq_idle (after hi)]
  case irq => rw [routeNmi_idle hn, routeIrq_cleared (signals hi)]; rfl
  case both => rw [routeNmi_taken hn, routeIrq_cleared (after hi), irq_masked (s := taken.clearIrq) (nmi_masks _)]; rfl

/-! The stack in work memory, where the cartridge does not claim it. -/

/-- The cartridge leaves the stack to work memory. -/
def StackFree (s : State) : Prop := ∀ k : Byte, unclaimed (stackAddr k) s

theorem StackFree.ofCart {s t : State} (h : StackFree s) (e : t.cart = s.cart) : StackFree t := fun k => (h k).ofCart e

theorem StackFree.ofReadFrame {s t : State} (h : StackFree s) (r : ReadFrame s t) : StackFree t := by
  intro k
  unfold unclaimed
  rw [r.cart_eq]
  exact h k

/-- The byte of the stack at a value of S. -/
def State.stackByte (s : State) (k : Byte) : Byte := s.workByte (stackAddr k)

theorem State.stackByte_onCpu (c : Cpu) (s : State) (k : Byte) : (onCpu c s).stackByte k = s.stackByte k := rfl

theorem State.stackByte_setCycles (n : Nat) (s : State) (k : Byte) : (s.setCycles n).stackByte k = s.stackByte k := rfl

theorem StackFree.memRead_eq {s : State} (h : StackFree s) (k : Byte) :
    memRead (stackAddr k) s = (s.stackByte k, s) := (h k).memRead_work_eq (stackAddr_lt k)

theorem StackFree.memWrite_eq {s : State} (h : StackFree s) (k v : Byte) :
    memWrite (stackAddr k) v s = s.setWork (stackAddr k) v := (h k).memWrite_work v (stackAddr_lt k)

theorem ReadFrame.stackByte {s t : State} (h : ReadFrame s t) (k : Byte) : t.stackByte k = s.stackByte k := by
  rw [h]; rfl

theorem stackAddr_toNat (k : Byte) : (stackAddr k).toNat = 256 + k.toNat := by rw [stackAddr, wordOf_toNat]; rfl

/-- The stack is 256 bytes, so that two values of S name two bytes (R21). -/
theorem State.stackByte_setWork (s : State) (j k v : Byte) :
    (s.setWork (stackAddr j) v).stackByte k = if j = k then v else s.stackByte k := by
  have cells : (stackAddr j).toNat % 2048 = (stackAddr k).toNat % 2048 ↔ j = k := by
    rw [stackAddr_toNat, stackAddr_toNat]; bv_omega
  rw [State.stackByte, State.workByte_setWork, if_congr cells rfl rfl, State.stackByte]

theorem StackFree.setWork {s : State} (h : StackFree s) (a : Word) (v : Byte) : StackFree (s.setWork a v) :=
  h.ofCart rfl

/-- The stack with a word pushed at `p` (R92). -/
def State.putWord (p : Byte) (w : Word) (s : State) : State :=
  (s.setWork (stackAddr p) (hi w)).setWork (stackAddr (p - 1)) (lo w)

theorem StackFree.memWrite_word {s : State} (h : StackFree s) (p : Byte) (w : Word) :
    memWrite (stackAddr (p - 1)) (lo w) (memWrite (stackAddr p) (hi w) s) = s.putWord p w := by
  rw [h.memWrite_eq, (h.setWork _ _).memWrite_eq, State.putWord]

theorem StackFree.putWord {s : State} (h : StackFree s) (p : Byte) (w : Word) : StackFree (s.putWord p w) :=
  h.ofCart rfl

theorem State.stackByte_putWord_high (s : State) (p : Byte) (w : Word) : (s.putWord p w).stackByte p = hi w := by
  rw [State.putWord, State.stackByte_setWork, if_neg (by bv_omega), State.stackByte_setWork, if_pos rfl]

theorem State.stackByte_putWord_low (s : State) (p : Byte) (w : Word) : (s.putWord p w).stackByte (p - 1) = lo w := by
  rw [State.putWord, State.stackByte_setWork, if_pos rfl]

/-- What a trap leaves on the stack, from S down (R494); reading the vector changes nothing there. -/
theorem StackFree.trapEntry_bytes {s : State} (h : StackFree s) (ret : Word) (status : Byte) (vector : Word) :
    let t := trapEntry ret status vector s
    StackFree t ∧ t.stackByte s.cpu.s = hi ret ∧ t.stackByte (s.cpu.s - 1) = lo ret ∧
      t.stackByte (s.cpu.s - 2) = status := by
  intro t
  let pushed := (s.putWord s.cpu.s ret).setWork (stackAddr (s.cpu.s - 2)) status
  have reads : ReadFrame pushed t := by
    simp only [t, trapEntry_eq, h.memWrite_word, (h.putWord _ _).memWrite_eq]
    exact (read16_frame vector pushed).withCpu _
  refine ⟨StackFree.ofReadFrame (s := pushed) (h.ofCart rfl) reads, ?_, ?_, ?_⟩ <;>
    rw [reads.stackByte, State.stackByte_setWork]
  · rw [if_neg (by bv_omega), State.stackByte_putWord_high]
  · rw [if_neg (by bv_omega), State.stackByte_putWord_low]
  · rw [if_pos rfl]

/-- What a return from a trap gives the CPU (R263). -/
theorem StackFree.trapReturn_cpu {t : State} (h : StackFree t) :
    (trapReturn t).cpu = { t.cpu with
      s := t.cpu.s + 3, p := Flags.ofByte (t.stackByte (t.cpu.s + 1))
      pc := wordOf (t.stackByte (t.cpu.s + 3)) (t.stackByte (t.cpu.s + 2)) } := by
  simp only [trapReturn_eq, h.memRead_eq, onCpu_cpu]

/-- What JSR does with the stack in work memory (R251). -/
theorem StackFree.opJsr_putWord {s : State} (h : StackFree s) (target : Word) :
    opJsr target s = onCpu { s.cpu with s := s.cpu.s - 2, pc := target } (s.putWord s.cpu.s (s.cpu.pc - 1)) := by
  simp only [opJsr_eq, h.memWrite_word]

/-- What RTS gives the CPU (R252). -/
theorem StackFree.opRts_cpu {t : State} (h : StackFree t) :
    (opRts t).cpu = { t.cpu with
      s := t.cpu.s + 2, pc := wordOf (t.stackByte (t.cpu.s + 2)) (t.stackByte (t.cpu.s + 1)) + 1 } := by
  simp only [opRts_eq, h.memRead_eq, onCpu_cpu]

/-- RTI gives back what an interrupt pushed (R24, R494). -/
theorem Flags.ofByte_interruptByte (p : Flags) : Flags.ofByte p.interruptByte = p := by
  obtain ⟨c, z, i, d, v, n⟩ := p
  revert c z i d v n; decide

/-- Settles O51: the bytes pushed are the bytes popped. -/
theorem trapThenReturn : Obligations.TrapThenReturn := by
  intro w s free
  have h : StackFree s := free
  refine ⟨?trap, ?subroutine⟩
  case trap =>
    obtain ⟨freeAfter, high, low, status⟩ := h.trapEntry_bytes s.cpu.pc s.cpu.p.interruptByte w
    rw [interruptEntry, freeAfter.trapReturn_cpu, trapEntry_cpu]
    dsimp only
    rw [show s.cpu.s - 1 - 1 - 1 + 3 = s.cpu.s by bv_omega, show s.cpu.s - 1 - 1 - 1 + 2 = s.cpu.s - 1 by bv_omega,
      show s.cpu.s - 1 - 1 - 1 + 1 = s.cpu.s - 2 by bv_omega, high, low, status, Flags.ofByte_interruptByte,
      Laws.wordOf_hi_lo]
  case subroutine =>
    have pushed := h.opJsr_putWord w
    have freeAfter : StackFree ((opJsr w s).setCycles 6) := by rw [pushed]; exact h.ofCart rfl
    refine ⟨(opJsr w s).setCycles 6, _, rfl, rfl, ?_⟩
    rw [State.setCycles_cpu, freeAfter.opRts_cpu, pushed]
    dsimp only [State.setCycles_cpu, onCpu_cpu]
    rw [show s.cpu.s - 2 + 2 = s.cpu.s by bv_omega, show s.cpu.s - 2 + 1 = s.cpu.s - 1 by bv_omega]
    simp only [State.stackByte_setCycles, State.stackByte_onCpu, State.stackByte_putWord_high,
      State.stackByte_putWord_low, Laws.wordOf_hi_lo, BitVec.sub_add_cancel]

/-! The reset (R495, R530, R60). -/

theorem step_of_reset {s : State} (h : s.inputs.reset = true) : step s = .next (systemReset s) := if_pos h

/-- The status register after a reset (D4). -/
theorem Flags.ofByte_resetStatus_toByte : (Flags.ofByte Config.resetStatus).toByte = 0x24 := by decide

/-- The CPU's reset is the read of the vector and a change of the CPU (R495). -/
theorem cpuReset_eq (s : State) :
    let r := read16 Config.resetVector s
    cpuReset s = onCpu {
      a := 0, x := 0, y := 0, s := Config.resetStackPointer, p := Flags.ofByte Config.resetStatus, pc := r.1
      cycles := s.params.resetCycles } r.2 := by
  simp only [cpuReset, fold_onCpu, read16_onCpu, setPc_onCpu, onCpu_cpu, onCpu_onCpu]

/-- Settles O52: the agents and the outputs are put back first, and then the CPU resets. -/
theorem resetSequence : Obligations.ResetSequence := by
  intro s h p u l hi
  refine ⟨Flags.ofByte Config.resetStatus, Flags.ofByte_resetStatus_toByte, ?_⟩
  rw [step_of_reset h, systemReset, cpuReset_eq]
  rfl

/-- Settles O53: the fields of the reset state, agent by agent. -/
theorem resetValues : Obligations.ResetValues := by
  refine ⟨?cpu, ?ppu, ?slots, ?orch, ?memories, ?cart, ?inputs, ?outputs, ?params⟩ <;> decide

end Sys2Proof.Machine
end

section
/-! SUPPORT. The system tick: it always goes on (O58), its sound slot and audio clock (O54), and which unit acts in it
(O46). -/

namespace Sys2Proof.Machine

/-! Every state has a next state (R490). -/

theorem systemTick_next (s : State) : ∃ t, systemTick s = .next t := by
  obtain ⟨t, ran, -⟩ := cpuSlot_spec (tickBegin s)
  exact ⟨tickEnd t, by rw [systemTick, ran, onNext_next]⟩

/-- Settles O58: a step is the system reset or a system tick. -/
theorem noFault : Obligations.NoFault := by
  intro s
  cases h : s.inputs.reset with
  | true => exact ⟨systemReset s, step_of_reset h⟩
  | false =>
    obtain ⟨t, ran⟩ := systemTick_next s
    exact ⟨t, by rw [step, h]; exact ran⟩

/-! Sound and audio (R470, R472). -/

theorem sampleDue_iff (s : State) :
    sampleDue s = true ↔ 1 / 44100 ≤ s.orch.audioTime + 1 / s.params.graphicsClockHz := decide_eq_true_iff

/-- Settles O54: the sound slot whole, and the audio clock below and from the threshold. -/
theorem soundAndAudio : Obligations.SoundAndAudio := by
  intro s a
  refine ⟨rfl, fun below => ?below, fun reached => ?reached, rfl, rfl, rfl⟩
  case below =>
    have due : ¬ sampleDue s = true := fun h => absurd ((sampleDue_iff s).mp h) (not_le.mpr below)
    exact ⟨if_neg due, if_neg due⟩
  case reached =>
    have due : sampleDue s = true := (sampleDue_iff s).mpr reached
    exact ⟨if_pos due, by simp [audioTime, due]⟩

/-! What no bus access changes, no instruction changes. -/

section
variable {α : Type} {f : State → α} (reads : ∀ {s t}, ReadFrame s t → f t = f s)
  (writes : ∀ a v s, f (memWrite a v s) = f s)
include reads

theorem keeps_onCpu (c : Cpu) (s : State) : f (onCpu c s) = f s := reads ((ReadFrame.refl s).withCpu c)

include writes

theorem writePlace_keepsBusData (p : Place) (v : Byte) (s : State) : f (writePlace p v s) = f s := by
  cases p with
  | mem ea => exact writes ea v s
  | acc => exact keeps_onCpu reads _ s
  | none | imm => rfl

theorem meaning_keepsBusData {m : Mnemonic} {o : Operand} {n : Nat} {s t : State} (h : meaning m o n s = .next t) :
    f t = f s := by
  by_cases stores : m.stores = true
  · obtain ⟨value, run⟩ := meaning_stores o n stores
    rw [run] at h
    rw [finish_next h, keeps_onCpu reads, writePlace_keepsBusData reads writes]
    exact reads (resolve_frame o s)
  by_cases modifies : m.modifies = true
  · obtain ⟨g, op, hop, run⟩ := meaning_modifies o n modifies
    rw [run] at h
    rw [finish_next h, keeps_onCpu reads, (hop _ _).eq_onCpu, keeps_onCpu reads, writePlace_keepsBusData reads writes]
    exact reads (readOperand_frame o s)
  by_cases pushes : m.pushes = true
  · cases m
    case jsr => rw [finish_next h, keeps_onCpu reads, opJsr_eq, keeps_onCpu reads, writes, writes]
    case brk =>
      rw [finish_next h, keeps_onCpu reads, opBrk]
      exact trapEntry_keeps reads (fun p => writes (stackAddr p)) _ _ _ s
    case pha => rw [finish_next h, keeps_onCpu reads, opPha, push_eq, keeps_onCpu reads, writes]
    case php => rw [finish_next h, keeps_onCpu reads, opPhp, push_eq, keeps_onCpu reads, writes]
    all_goals cases pushes
  exact reads (meaning_frame (by simpa using stores) (by simpa using pushes) (by simpa using modifies) h)

end

/-! The system counter (R50): only the end of a tick changes it. -/

theorem ReadFrame.counter {s t : State} (h : ReadFrame s t) : t.orch.counter = s.orch.counter := by rw [h]

theorem memWrite_counter (a : Word) (v : Byte) (s : State) : (memWrite a v s).orch.counter = s.orch.counter := by
  unfold memWrite memWriteInside
  simp only
  split
  · rfl
  split
  · rfl
  split
  · rw [portWrite_frame]; rfl
  split
  · rfl
  split
  · rfl
  split <;> rfl

theorem exec_counter {i : Instr} {s t : State} (h : exec i s = .next t) : t.orch.counter = s.orch.counter :=
  meaning_keepsBusData (f := (·.orch.counter)) ReadFrame.counter memWrite_counter ((exec_meaning i s).symm.trans h)

theorem interruptEntry_counter (vector : Word) (s : State) :
    (interruptEntry vector s).orch.counter = s.orch.counter :=
  trapEntry_keeps (f := (·.orch.counter)) ReadFrame.counter (fun p => memWrite_counter (stackAddr p)) _ _ _ s

/-- A DMA slot leaves the counter and both interrupt requests alone. -/
theorem dmaSlot_keeps (s : State) :
    (dmaSlot s).orch.counter = s.orch.counter ∧ (dmaSlot s).ppu.nmiRequest = s.ppu.nmiRequest ∧
      (dmaSlot s).cart.signals = s.cart.signals := by
  unfold dmaSlot
  split
  · split <;> exact ⟨rfl, rfl, rfl⟩
  · split
    · have read := memRead_frame (wordOf s.orch.dmaPage s.orch.dmaIndex) s
      exact ⟨read.counter, read.nmiRequest, read.cart_signals⟩
    · exact ⟨by rw [dmaWrite, State.mapOrch_orch, Orch.nextByte_eq]; rfl, rfl, rfl⟩

theorem soundSlot_counter (s : State) : (soundSlot s).orch.counter = s.orch.counter := rfl

theorem cpuTick_counter {s t : State} (h : cpuTick s = .next t) : t.orch.counter = s.orch.counter := by
  unfold cpuTick at h
  split at h
  · obtain ⟨u, ran⟩ := (exec_goes (fetchInstr s).1 (fetchInstr s).2).next
    obtain rfl : spendCycle u = t := by simpa [ran] using h
    exact (exec_counter ran).trans (fetchInstr_frame s).counter
  · obtain rfl : spendCycle s = t := by simpa using h
    rfl

theorem cpuSlot_counter {s t : State} (h : cpuSlot s = .next t) : t.orch.counter = s.orch.counter := by
  unfold cpuSlot at h
  split at h
  · split at h
    · obtain rfl : soundSlot (dmaSlot s) = t := by simpa using h
      exact (soundSlot_counter _).trans (dmaSlot_keeps s).1
    · obtain ⟨u, ran⟩ := cpuTick_next s
      obtain rfl : soundSlot u = t := by simpa [ran] using h
      exact (soundSlot_counter u).trans (cpuTick_counter ran)
  · obtain rfl : s = t := by simpa using h
    rfl

theorem routeNmi_counter (s : State) : (routeNmi s).orch.counter = s.orch.counter := by
  unfold routeNmi
  split
  · exact interruptEntry_counter _ _
  · rfl

theorem irq_counter (s : State) : (irq s).orch.counter = s.orch.counter := by
  unfold irq
  split
  · rfl
  · exact interruptEntry_counter _ _

theorem routeIrq_counter (s : State) : (routeIrq s).orch.counter = s.orch.counter := by
  unfold routeIrq
  simp only
  split
  · exact irq_counter _
  · rfl

theorem tickEnd_counter (s : State) : (tickEnd s).orch.counter = s.orch.counter + 1 :=
  congrArg (· + 1) ((routeIrq_counter _).trans (routeNmi_counter _))

/-! The phases of a tick (R450 to R452). -/

theorem step_eq_systemTick {s : State} (h : s.inputs.reset = false) : step s = systemTick s := if_neg (by simp [h])

theorem step_of_cpuSlot {s t : State} (h : s.inputs.reset = false) (ran : cpuSlot (tickBegin s) = .next t) :
    step s = .next (tickEnd t) := by rw [step_eq_systemTick h, systemTick, ran, onNext_next]

section
variable {s : State}

theorem cpuSlot_between (h : s.orch.counter % 3 ≠ 0) : cpuSlot s = .next s := by simp [cpuSlot, isCpuSlot, h]

theorem cpuSlot_dma (slot : s.orch.counter % 3 = 0) (active : s.orch.dmaActive = true) :
    cpuSlot s = .next (soundSlot (dmaSlot s)) := by simp [cpuSlot, isCpuSlot, slot, active]

theorem cpuSlot_owing (slot : s.orch.counter % 3 = 0) (idle : s.orch.dmaActive = false) (owes : 0 < s.cpu.cycles) :
    cpuSlot s = .next (soundSlot (spendCycle s)) := by
  have busy : s.cpu.cycles ≠ 0 := by omega
  simp [cpuSlot, isCpuSlot, slot, idle, cpuTick, busy]

/-- With no interrupt taken the end of a tick leaves the CPU alone. -/
theorem tickEnd_cpu (quiet : s.ppu.nmiRequest = false) (signals : s.cart.signals = (false, false)) :
    (tickEnd s).cpu = s.cpu := by
  rw [tickEnd, State.mapOrch_cpu, routeNmi_idle (s := audioTime s) quiet, routeIrq_idle (s := audioTime s) signals]
  rfl

end

/-- Settles O46: the three kinds of tick, the counter, and a transfer in flight, in whose ticks of the first two kinds
the CPU stands. -/
theorem tickPhases : Obligations.TickPhases := by
  intro s noReset u
  obtain ⟨-, -, -, orch, cpu⟩ := tickBegin_spec s
  have between (h : s.orch.counter % 3 ≠ 0) : step s = .next (tickEnd u) :=
    step_of_cpuSlot noReset (cpuSlot_between (by rw [orch]; exact h))
  have transfer (h : s.orch.counter % 3 = 0) (active : s.orch.dmaActive = true) :
      step s = .next (tickEnd (soundSlot (dmaSlot u))) :=
    step_of_cpuSlot noReset (cpuSlot_dma (by rw [orch]; exact h) (by rw [orch]; exact active))
  refine ⟨between, transfer, fun h idle owes => ?owing, fun t ran => ?counter,
    fun active quiet concrete level => ?inFlight⟩
  case owing =>
    exact step_of_cpuSlot noReset
      (cpuSlot_owing (by rw [orch]; exact h) (by rw [orch]; exact idle) (by rw [cpu]; exact owes))
  case counter =>
    obtain ⟨v, slot, -⟩ := cpuSlot_spec u
    obtain rfl : tickEnd v = t := by simpa [step_of_cpuSlot noReset slot] using ran
    rw [tickEnd_counter, cpuSlot_counter slot, orch]
  case inFlight =>
    have signals : u.cart.signals = (false, false) := by
      rw [show u.cart = _ from ppuTick_cart _]
      exact Prod.ext concrete level
    by_cases h : s.orch.counter % 3 = 0
    · obtain ⟨-, request, level⟩ := dmaSlot_keeps u
      refine ⟨_, transfer h active, ?_⟩
      rw [tickEnd_cpu (s := soundSlot (dmaSlot u)) (request.trans quiet) (level.trans signals)]
      exact (dmaSlot_cpu u).trans cpu
    · exact ⟨_, between h, (tickEnd_cpu quiet signals).trans cpu⟩

end Sys2Proof.Machine
end
